-- ==== Sys2Proof/Word.lean ====
section
/-! DEFINITION. Word.lean: the word types of the go-tfhe CORE and the two readings of a 32-bit word
(spec 00_scope.md R8 and R11). Nothing here chooses a behaviour. -/

namespace Sys2Proof

/-- One byte of IMEM or DMEM (R100). -/
abbrev Byte := BitVec 8

/-- A u32: scalar registers, torus values, coefficients, addresses, CSRs (R8 XLEN, R11). -/
abbrev Word := BitVec 32

/-- One instruction word (R8 ILEN, R140). -/
abbrev InstrWord := BitVec 64

/-- A binary64 bit pattern: the variance trackers and the noise parameter α (R18, R36). -/
abbrev F64 := BitVec 64

/-- `s32(v)` of R11: the two's-complement signed value. -/
abbrev s32 (v : Word) : Int := v.toInt

/-- `u32(x)` of R11: the residue of an integer modulo 2^32. -/
abbrev u32 (x : Int) : Word := BitVec.ofInt 32 x

end Sys2Proof
end

