-- ==== Sys2Proof/Syntax.lean ====
section
/-! DEFINITION. Syntax.lean: the instructions of the CORE, one constructor for each of the 78 rows of
spec/opcode_table.json (R7, R150), in R150's order. Operands stand in the order of the encoding
fields D, A, B, then the immediate (R140, R141). -/

namespace Sys2Proof

/-- An index of the scalar file S0..S15 (R32, R142). -/
abbrev SIdx := Fin 16
/-- An index of the polynomial file P0..P15 (R34, R142). -/
abbrev PIdx := Fin 16
/-- An index of the Fourier file F0..F7 (R35, R142). -/
abbrev FIdx := Fin 8
/-- An index of the LWE file L0..L7 (R36, R142). -/
abbrev LIdx := Fin 8
/-- An index of the RLWE file R0..R3 (R37, R142). -/
abbrev RIdx := Fin 4

/-- The instruction set (R150). `csr` is a CSR number (R50: 0 to 0xFFF, see `Instr.wf`), `imm` is
imm32 (R143). The X rows of R144 are constructors of their own, as in the table. -/
inductive Instr where
  -- system (40_sequencer.md)
  | nop
  | halt
  | csrr (d : SIdx) (csr : Nat)
  | csrw (a : SIdx) (csr : Nat)
  -- scalar
  | sLi (d : SIdx) (imm : Word)
  | sAddi (d a : SIdx) (imm : Word)
  | sAdd (d a b : SIdx)
  | sSub (d a b : SIdx)
  | sMul (d a b : SIdx)
  | sAnd (d a b : SIdx)
  | sSll (d a b : SIdx)
  | sSrl (d a b : SIdx)
  | sLw (d a : SIdx) (imm : Word)
  | sSw (d a : SIdx) (imm : Word)
  -- control
  | beq (a b : SIdx) (imm : Word)
  | bne (a b : SIdx) (imm : Word)
  | blt (a b : SIdx) (imm : Word)
  | bltu (a b : SIdx) (imm : Word)
  | jmp (imm : Word)
  | jal (d : SIdx) (imm : Word)
  | jr (a : SIdx)
  -- torus scalar (41_torus.md)
  | mswF (d a b : SIdx)
  | mswT (d a b : SIdx)
  | aphase (d a b : SIdx)
  | gauss (d a : SIdx)
  -- polynomial ring (42_polynomial.md)
  | pClr (d : PIdx)
  | pAdd (d a b : PIdx)
  | pSub (d a b : PIdx)
  | pAddmulz (d a : PIdx) (b : SIdx)
  | pMulxai (d a : PIdx) (b : SIdx)
  | pMulxaim1 (d a : PIdx) (b : SIdx)
  | pMulfft (d a b : PIdx)
  | pLd (d : PIdx) (a : SIdx) (imm : Word)
  | pSt (d : PIdx) (a : SIdx) (imm : Word)
  -- FFT engine (43_fft.md)
  | fClr (d : FIdx)
  | fFwdi (d : FIdx) (a : PIdx)
  | fFwdt (d : FIdx) (a : PIdx)
  | fInv (d : PIdx) (a : FIdx)
  | fMuladd (d a b : FIdx)
  | fMono (d : FIdx) (a : SIdx)
  -- LWE (44_lwe.md)
  | lEnc (d : LIdx) (a : SIdx)
  | lEncX (d : LIdx) (a : SIdx)
  | lDec (d : SIdx) (a : LIdx) (b : SIdx)
  | lDecX (d : SIdx) (a : LIdx) (b : SIdx)
  | lPhase (d : SIdx) (a : LIdx)
  | lPhaseX (d : SIdx) (a : LIdx)
  | lTriv (d : LIdx) (a : SIdx)
  | lTrivX (d : LIdx) (a : SIdx)
  | lAdd (d a : LIdx)
  | lSub (d a : LIdx)
  | lAddmul (d a : LIdx) (b : SIdx)
  | lSubmul (d a : LIdx) (b : SIdx)
  | lNeg (d a : LIdx)
  | lCopy (d a : LIdx)
  | lLd (d : LIdx) (a : SIdx) (imm : Word)
  | lLdX (d : LIdx) (a : SIdx) (imm : Word)
  | lSt (d : LIdx) (a : SIdx) (imm : Word)
  | keyLdl (a : SIdx) (imm : Word)
  -- RLWE (45_rlwe.md)
  | rEnc0 (d : RIdx)
  | rEnc (d : RIdx) (a : PIdx)
  | rPhase (d : PIdx) (a : RIdx)
  | rTriv (d : RIdx) (a : PIdx)
  | rAdd (d a : RIdx)
  | rSub (d a : RIdx)
  | rAddmulr (d : RIdx) (a : PIdx) (b : RIdx)
  | rMulxaim1 (d a : RIdx) (b : SIdx)
  | rExtract (d : LIdx) (a : RIdx) (b : SIdx)
  | rLd (d : RIdx) (a : SIdx) (imm : Word)
  | rSt (d : RIdx) (a : SIdx) (imm : Word)
  | keyLdr (a : SIdx) (imm : Word)
  -- RGSW (46_rgsw.md)
  | gDecomp (d a : PIdx)
  | gEnc (a b : SIdx)
  | gLd (d a : SIdx) (imm : Word)
  | gExtprod (d a : RIdx) (b : SIdx)
  -- key switching (47_keyswitch.md)
  | ks (d a : LIdx)
  -- bootstrapping (48_bootstrap.md)
  | brRot (d : RIdx) (a : LIdx) (b : SIdx)
  | bootNks (d a : LIdx) (b : SIdx)
  | boot (d a : LIdx) (b : SIdx)
deriving DecidableEq, Repr

end Sys2Proof
end

