-- ==== Sys2Proof/WellFormed.lean ====
section
/-! DEFINITION. WellFormed.lean: which terms of `Instr` an instruction word can spell. Register indices
are bounded by their types; the one field that is not is the CSR number (R50, R141, R146). -/

namespace Sys2Proof

/-- The CSR number fits word[43:32] (R50: 4096 numbers; R143). Whether such a CSR exists is checked by
the instruction (R212, R213), not here. -/
def csrNumberOk (csr : Nat) : Bool := csr < 4096

/-- An instruction some word of R150 encodes. -/
def Instr.wf : Instr → Bool
  | .csrr _ csr => csrNumberOk csr
  | .csrw _ csr => csrNumberOk csr
  | .nop | .halt | .sLi .. | .sAddi .. | .sAdd .. | .sSub .. | .sMul .. | .sAnd .. | .sSll ..
  | .sSrl .. | .sLw .. | .sSw .. | .beq .. | .bne .. | .blt .. | .bltu .. | .jmp .. | .jal ..
  | .jr .. | .mswF .. | .mswT .. | .aphase .. | .gauss .. | .pClr .. | .pAdd .. | .pSub ..
  | .pAddmulz .. | .pMulxai .. | .pMulxaim1 .. | .pMulfft .. | .pLd .. | .pSt .. | .fClr ..
  | .fFwdi .. | .fFwdt .. | .fInv .. | .fMuladd .. | .fMono .. | .lEnc .. | .lEncX .. | .lDec ..
  | .lDecX .. | .lPhase .. | .lPhaseX .. | .lTriv .. | .lTrivX .. | .lAdd .. | .lSub ..
  | .lAddmul .. | .lSubmul .. | .lNeg .. | .lCopy .. | .lLd .. | .lLdX .. | .lSt .. | .keyLdl ..
  | .rEnc0 .. | .rEnc .. | .rPhase .. | .rTriv .. | .rAdd .. | .rSub .. | .rAddmulr ..
  | .rMulxaim1 .. | .rExtract .. | .rLd .. | .rSt .. | .keyLdr .. | .gDecomp .. | .gEnc ..
  | .gLd .. | .gExtprod .. | .ks .. | .brRot .. | .bootNks .. | .boot .. => true

end Sys2Proof
end

