-- ==== Sys2Proof/Decode.lean ====
section
/-! DEFINITION. Decode.lean: the decoder and the encoder of the 64-bit instruction word, both written from
the encoding tables of spec 30_encoding.md (R140 to R150), and the opcode table itself. -/

namespace Sys2Proof

/-! ### The seven fields of a word (R140) -/

/-- R140: the seven fields of an instruction word. A field an instruction does not use is 0 (R141). -/
structure Fields where
  op : BitVec 8
  d : BitVec 4 := 0
  a : BitVec 4 := 0
  b : BitVec 4 := 0
  c : BitVec 4 := 0
  fn : BitVec 8 := 0
  imm : BitVec 32 := 0
deriving DecidableEq, Repr

/-- R140: the fields of a word, bits 7:0, 11:8, 15:12, 19:16, 23:20, 31:24 and 63:32. -/
def Fields.split (w : InstrWord) : Fields where
  op := w.extractLsb' 0 8
  d := w.extractLsb' 8 4
  a := w.extractLsb' 12 4
  b := w.extractLsb' 16 4
  c := w.extractLsb' 20 4
  fn := w.extractLsb' 24 8
  imm := w.extractLsb' 32 32

/-- R140: the word with the given fields. -/
def Fields.join (f : Fields) : InstrWord :=
  f.imm ++ f.fn ++ f.c ++ f.b ++ f.a ++ f.d ++ f.op

/-! ### Register and CSR fields (R142, R143, R146) -/

/-- R142: the high bit of an L or F field is 0. -/
def isLow8 (x : BitVec 4) : Bool := x.toNat < 8

/-- R142: the two high bits of an R field are 0. -/
def isLow4 (x : BitVec 4) : Bool := x.toNat < 4

/-- R142: the register a 4-bit S or P field names. -/
def idx16 (x : BitVec 4) : Fin 16 := Fin.ofNat 16 x.toNat

/-- R142: the register an L or F field names. -/
def idx8 (x : BitVec 4) : Fin 8 := Fin.ofNat 8 x.toNat

/-- R142: the register an R field names. -/
def idx4 (x : BitVec 4) : Fin 4 := Fin.ofNat 4 x.toNat

/-- The S or P field that names a register (R142). -/
def fld16 (i : Fin 16) : BitVec 4 := BitVec.ofNat 4 i.val

/-- The L or F field that names a register (R142). -/
def fld8 (i : Fin 8) : BitVec 4 := BitVec.ofNat 4 i.val

/-- The R field that names a register (R142). -/
def fld4 (i : Fin 4) : BitVec 4 := BitVec.ofNat 4 i.val

/-- R143, R146: word[63:44] is 0 in the CSR rows. -/
def csrHighOk (imm : BitVec 32) : Bool := imm.toNat < 4096

/-- R143: the CSR number, word[43:32]. -/
def csrOf (imm : BitVec 32) : Nat := imm.toNat % 4096

/-! ### Decoding -/

/-- Why a word, or a run of bytes, is no instruction. Every reason is R147's illegal encoding. -/
inductive Reject where
  /-- fewer than eight bytes were given -/
  | tooShort
  /-- an opcode the map does not list (R147, R148) -/
  | unlistedOpcode (op : BitVec 8)
  /-- a listed opcode with a reserved bit set (R146) -/
  | reservedBits (op : BitVec 8)
deriving DecidableEq, Repr

/-- A row without X (R146): C and FN are 0, and so is all that `ok` says of the other fields. -/
def row (f : Fields) (ok : Bool) (i : Instr) : Except Reject Instr :=
  if f.c == 0 && f.fn == 0 && ok then .ok i else .error (.reservedBits f.op)

/-- A pair of rows that word[24] tells apart (R144): FN is 0 or 1. -/
def rowX (f : Fields) (ok : Bool) (i0 i1 : Instr) : Except Reject Instr :=
  if f.c == 0 && f.fn == 0 && ok then .ok i0
  else if f.c == 0 && f.fn == 1 && ok then .ok i1
  else .error (.reservedBits f.op)

/-- R145, R150: the instruction a word's fields spell. -/
def decodeFields (f : Fields) : Except Reject Instr :=
  match f.op with
  | 0x01 => row f (f.d == 0 && f.a == 0 && f.b == 0 && f.imm == 0) .nop
  | 0x02 => row f (f.d == 0 && f.a == 0 && f.b == 0 && f.imm == 0) .halt
  | 0x03 => row f (f.a == 0 && f.b == 0 && csrHighOk f.imm) (.csrr (idx16 f.d) (csrOf f.imm))
  | 0x04 => row f (f.d == 0 && f.b == 0 && csrHighOk f.imm) (.csrw (idx16 f.a) (csrOf f.imm))
  | 0x10 => row f (f.a == 0 && f.b == 0) (.sLi (idx16 f.d) f.imm)
  | 0x11 => row f (f.b == 0) (.sAddi (idx16 f.d) (idx16 f.a) f.imm)
  | 0x12 => row f (f.imm == 0) (.sAdd (idx16 f.d) (idx16 f.a) (idx16 f.b))
  | 0x13 => row f (f.imm == 0) (.sSub (idx16 f.d) (idx16 f.a) (idx16 f.b))
  | 0x14 => row f (f.imm == 0) (.sMul (idx16 f.d) (idx16 f.a) (idx16 f.b))
  | 0x15 => row f (f.imm == 0) (.sAnd (idx16 f.d) (idx16 f.a) (idx16 f.b))
  | 0x16 => row f (f.imm == 0) (.sSll (idx16 f.d) (idx16 f.a) (idx16 f.b))
  | 0x17 => row f (f.imm == 0) (.sSrl (idx16 f.d) (idx16 f.a) (idx16 f.b))
  | 0x18 => row f (f.b == 0) (.sLw (idx16 f.d) (idx16 f.a) f.imm)
  | 0x19 => row f (f.b == 0) (.sSw (idx16 f.d) (idx16 f.a) f.imm)
  | 0x20 => row f (f.d == 0) (.beq (idx16 f.a) (idx16 f.b) f.imm)
  | 0x21 => row f (f.d == 0) (.bne (idx16 f.a) (idx16 f.b) f.imm)
  | 0x22 => row f (f.d == 0) (.blt (idx16 f.a) (idx16 f.b) f.imm)
  | 0x23 => row f (f.d == 0) (.bltu (idx16 f.a) (idx16 f.b) f.imm)
  | 0x24 => row f (f.d == 0 && f.a == 0 && f.b == 0) (.jmp f.imm)
  | 0x25 => row f (f.a == 0 && f.b == 0) (.jal (idx16 f.d) f.imm)
  | 0x26 => row f (f.d == 0 && f.b == 0 && f.imm == 0) (.jr (idx16 f.a))
  | 0x28 => row f (f.imm == 0) (.mswF (idx16 f.d) (idx16 f.a) (idx16 f.b))
  | 0x29 => row f (f.imm == 0) (.mswT (idx16 f.d) (idx16 f.a) (idx16 f.b))
  | 0x2A => row f (f.imm == 0) (.aphase (idx16 f.d) (idx16 f.a) (idx16 f.b))
  | 0x2B => row f (f.b == 0 && f.imm == 0) (.gauss (idx16 f.d) (idx16 f.a))
  | 0x30 => row f (f.a == 0 && f.b == 0 && f.imm == 0) (.pClr (idx16 f.d))
  | 0x31 => row f (f.imm == 0) (.pAdd (idx16 f.d) (idx16 f.a) (idx16 f.b))
  | 0x32 => row f (f.imm == 0) (.pSub (idx16 f.d) (idx16 f.a) (idx16 f.b))
  | 0x33 => row f (f.imm == 0) (.pAddmulz (idx16 f.d) (idx16 f.a) (idx16 f.b))
  | 0x34 => row f (f.imm == 0) (.pMulxai (idx16 f.d) (idx16 f.a) (idx16 f.b))
  | 0x35 => row f (f.imm == 0) (.pMulxaim1 (idx16 f.d) (idx16 f.a) (idx16 f.b))
  | 0x36 => row f (f.imm == 0) (.pMulfft (idx16 f.d) (idx16 f.a) (idx16 f.b))
  | 0x38 => row f (f.b == 0) (.pLd (idx16 f.d) (idx16 f.a) f.imm)
  | 0x39 => row f (f.b == 0) (.pSt (idx16 f.d) (idx16 f.a) f.imm)
  | 0x40 => row f (isLow8 f.d && f.a == 0 && f.b == 0 && f.imm == 0) (.fClr (idx8 f.d))
  | 0x41 => row f (isLow8 f.d && f.b == 0 && f.imm == 0) (.fFwdi (idx8 f.d) (idx16 f.a))
  | 0x42 => row f (isLow8 f.d && f.b == 0 && f.imm == 0) (.fFwdt (idx8 f.d) (idx16 f.a))
  | 0x43 => row f (isLow8 f.a && f.b == 0 && f.imm == 0) (.fInv (idx16 f.d) (idx8 f.a))
  | 0x44 => row f (isLow8 f.d && isLow8 f.a && isLow8 f.b && f.imm == 0) (.fMuladd (idx8 f.d) (idx8 f.a) (idx8 f.b))
  | 0x45 => row f (isLow8 f.d && f.b == 0 && f.imm == 0) (.fMono (idx8 f.d) (idx16 f.a))
  | 0x50 => rowX f (isLow8 f.d && f.b == 0 && f.imm == 0) (.lEnc (idx8 f.d) (idx16 f.a)) (.lEncX (idx8 f.d) (idx16 f.a))
  | 0x51 => rowX f (isLow8 f.a && f.imm == 0) (.lDec (idx16 f.d) (idx8 f.a) (idx16 f.b)) (.lDecX (idx16 f.d) (idx8 f.a) (idx16 f.b))
  | 0x52 => rowX f (isLow8 f.a && f.b == 0 && f.imm == 0) (.lPhase (idx16 f.d) (idx8 f.a)) (.lPhaseX (idx16 f.d) (idx8 f.a))
  | 0x53 => rowX f (isLow8 f.d && f.b == 0 && f.imm == 0) (.lTriv (idx8 f.d) (idx16 f.a)) (.lTrivX (idx8 f.d) (idx16 f.a))
  | 0x54 => row f (isLow8 f.d && isLow8 f.a && f.b == 0 && f.imm == 0) (.lAdd (idx8 f.d) (idx8 f.a))
  | 0x55 => row f (isLow8 f.d && isLow8 f.a && f.b == 0 && f.imm == 0) (.lSub (idx8 f.d) (idx8 f.a))
  | 0x56 => row f (isLow8 f.d && isLow8 f.a && f.imm == 0) (.lAddmul (idx8 f.d) (idx8 f.a) (idx16 f.b))
  | 0x57 => row f (isLow8 f.d && isLow8 f.a && f.imm == 0) (.lSubmul (idx8 f.d) (idx8 f.a) (idx16 f.b))
  | 0x58 => row f (isLow8 f.d && isLow8 f.a && f.b == 0 && f.imm == 0) (.lNeg (idx8 f.d) (idx8 f.a))
  | 0x59 => row f (isLow8 f.d && isLow8 f.a && f.b == 0 && f.imm == 0) (.lCopy (idx8 f.d) (idx8 f.a))
  | 0x5A => rowX f (isLow8 f.d && f.b == 0) (.lLd (idx8 f.d) (idx16 f.a) f.imm) (.lLdX (idx8 f.d) (idx16 f.a) f.imm)
  | 0x5B => row f (isLow8 f.d && f.b == 0) (.lSt (idx8 f.d) (idx16 f.a) f.imm)
  | 0x5C => row f (f.d == 0 && f.b == 0) (.keyLdl (idx16 f.a) f.imm)
  | 0x60 => row f (isLow4 f.d && f.a == 0 && f.b == 0 && f.imm == 0) (.rEnc0 (idx4 f.d))
  | 0x61 => row f (isLow4 f.d && f.b == 0 && f.imm == 0) (.rEnc (idx4 f.d) (idx16 f.a))
  | 0x62 => row f (isLow4 f.a && f.b == 0 && f.imm == 0) (.rPhase (idx16 f.d) (idx4 f.a))
  | 0x63 => row f (isLow4 f.d && f.b == 0 && f.imm == 0) (.rTriv (idx4 f.d) (idx16 f.a))
  | 0x64 => row f (isLow4 f.d && isLow4 f.a && f.b == 0 && f.imm == 0) (.rAdd (idx4 f.d) (idx4 f.a))
  | 0x65 => row f (isLow4 f.d && isLow4 f.a && f.b == 0 && f.imm == 0) (.rSub (idx4 f.d) (idx4 f.a))
  | 0x66 => row f (isLow4 f.d && isLow4 f.b && f.imm == 0) (.rAddmulr (idx4 f.d) (idx16 f.a) (idx4 f.b))
  | 0x67 => row f (isLow4 f.d && isLow4 f.a && f.imm == 0) (.rMulxaim1 (idx4 f.d) (idx4 f.a) (idx16 f.b))
  | 0x68 => row f (isLow8 f.d && isLow4 f.a && f.imm == 0) (.rExtract (idx8 f.d) (idx4 f.a) (idx16 f.b))
  | 0x69 => row f (isLow4 f.d && f.b == 0) (.rLd (idx4 f.d) (idx16 f.a) f.imm)
  | 0x6A => row f (isLow4 f.d && f.b == 0) (.rSt (idx4 f.d) (idx16 f.a) f.imm)
  | 0x6B => row f (f.d == 0 && f.b == 0) (.keyLdr (idx16 f.a) f.imm)
  | 0x70 => row f (f.b == 0 && f.imm == 0) (.gDecomp (idx16 f.d) (idx16 f.a))
  | 0x71 => row f (f.d == 0 && f.imm == 0) (.gEnc (idx16 f.a) (idx16 f.b))
  | 0x72 => row f (f.b == 0) (.gLd (idx16 f.d) (idx16 f.a) f.imm)
  | 0x73 => row f (isLow4 f.d && isLow4 f.a && f.imm == 0) (.gExtprod (idx4 f.d) (idx4 f.a) (idx16 f.b))
  | 0x78 => row f (isLow8 f.d && isLow8 f.a && f.b == 0 && f.imm == 0) (.ks (idx8 f.d) (idx8 f.a))
  | 0x7C => row f (isLow4 f.d && isLow8 f.a && f.imm == 0) (.brRot (idx4 f.d) (idx8 f.a) (idx16 f.b))
  | 0x7D => row f (isLow8 f.d && isLow8 f.a && f.imm == 0) (.bootNks (idx8 f.d) (idx8 f.a) (idx16 f.b))
  | 0x7E => row f (isLow8 f.d && isLow8 f.a && f.imm == 0) (.boot (idx8 f.d) (idx8 f.a) (idx16 f.b))
  | _ => .error (.unlistedOpcode f.op)

/-- R145: the instruction of a 64-bit word. -/
def decode (w : InstrWord) : Except Reject Instr := decodeFields (Fields.split w)

/-- R103: the word whose bytes are given, the least significant byte first. -/
def wordOfBytes : List Byte → Option InstrWord
  | [b0, b1, b2, b3, b4, b5, b6, b7] => some (b7 ++ b6 ++ b5 ++ b4 ++ b3 ++ b2 ++ b1 ++ b0)
  | _ => none

/-- R103: byte `i` of a word, byte 0 the least significant. -/
def byteOfWord (w : InstrWord) (i : Nat) : Byte := w.extractLsb' (8 * i) 8

/-- R103, R140: the eight bytes of a word as they lie in IMEM. -/
def bytesOfWord (w : InstrWord) : List Byte := (List.range 8).map (byteOfWord w)

/-- R140, R149: the instruction at the head of a run of bytes. Total on any bytes. -/
def decodeBytes (bs : List Byte) : Except Reject Instr :=
  match wordOfBytes (bs.take 8) with
  | some w => decode w
  | none => .error .tooShort

/-- The host's question: the instruction the decoder reads from a table word of `nbits` bits, bit 0 the
least significant bit of the word, every bit above `nbits` 0. -/
def decodeTableWord (nbits w : Nat) : Option Instr :=
  match decodeBytes (bytesOfWord (BitVec.ofNat 64 (w % 2 ^ nbits))) with
  | .ok i => some i
  | .error _ => none

/-! ### Encoding -/

/-- R140, R150: the fields that spell an instruction. -/
def encodeFields : Instr → Fields
  | .nop => { op := 0x01 }
  | .halt => { op := 0x02 }
  | .csrr d csr => { op := 0x03, d := fld16 d, imm := BitVec.ofNat 32 csr }
  | .csrw a csr => { op := 0x04, a := fld16 a, imm := BitVec.ofNat 32 csr }
  | .sLi d imm => { op := 0x10, d := fld16 d, imm := imm }
  | .sAddi d a imm => { op := 0x11, d := fld16 d, a := fld16 a, imm := imm }
  | .sAdd d a b => { op := 0x12, d := fld16 d, a := fld16 a, b := fld16 b }
  | .sSub d a b => { op := 0x13, d := fld16 d, a := fld16 a, b := fld16 b }
  | .sMul d a b => { op := 0x14, d := fld16 d, a := fld16 a, b := fld16 b }
  | .sAnd d a b => { op := 0x15, d := fld16 d, a := fld16 a, b := fld16 b }
  | .sSll d a b => { op := 0x16, d := fld16 d, a := fld16 a, b := fld16 b }
  | .sSrl d a b => { op := 0x17, d := fld16 d, a := fld16 a, b := fld16 b }
  | .sLw d a imm => { op := 0x18, d := fld16 d, a := fld16 a, imm := imm }
  | .sSw d a imm => { op := 0x19, d := fld16 d, a := fld16 a, imm := imm }
  | .beq a b imm => { op := 0x20, a := fld16 a, b := fld16 b, imm := imm }
  | .bne a b imm => { op := 0x21, a := fld16 a, b := fld16 b, imm := imm }
  | .blt a b imm => { op := 0x22, a := fld16 a, b := fld16 b, imm := imm }
  | .bltu a b imm => { op := 0x23, a := fld16 a, b := fld16 b, imm := imm }
  | .jmp imm => { op := 0x24, imm := imm }
  | .jal d imm => { op := 0x25, d := fld16 d, imm := imm }
  | .jr a => { op := 0x26, a := fld16 a }
  | .mswF d a b => { op := 0x28, d := fld16 d, a := fld16 a, b := fld16 b }
  | .mswT d a b => { op := 0x29, d := fld16 d, a := fld16 a, b := fld16 b }
  | .aphase d a b => { op := 0x2A, d := fld16 d, a := fld16 a, b := fld16 b }
  | .gauss d a => { op := 0x2B, d := fld16 d, a := fld16 a }
  | .pClr d => { op := 0x30, d := fld16 d }
  | .pAdd d a b => { op := 0x31, d := fld16 d, a := fld16 a, b := fld16 b }
  | .pSub d a b => { op := 0x32, d := fld16 d, a := fld16 a, b := fld16 b }
  | .pAddmulz d a b => { op := 0x33, d := fld16 d, a := fld16 a, b := fld16 b }
  | .pMulxai d a b => { op := 0x34, d := fld16 d, a := fld16 a, b := fld16 b }
  | .pMulxaim1 d a b => { op := 0x35, d := fld16 d, a := fld16 a, b := fld16 b }
  | .pMulfft d a b => { op := 0x36, d := fld16 d, a := fld16 a, b := fld16 b }
  | .pLd d a imm => { op := 0x38, d := fld16 d, a := fld16 a, imm := imm }
  | .pSt d a imm => { op := 0x39, d := fld16 d, a := fld16 a, imm := imm }
  | .fClr d => { op := 0x40, d := fld8 d }
  | .fFwdi d a => { op := 0x41, d := fld8 d, a := fld16 a }
  | .fFwdt d a => { op := 0x42, d := fld8 d, a := fld16 a }
  | .fInv d a => { op := 0x43, d := fld16 d, a := fld8 a }
  | .fMuladd d a b => { op := 0x44, d := fld8 d, a := fld8 a, b := fld8 b }
  | .fMono d a => { op := 0x45, d := fld8 d, a := fld16 a }
  | .lEnc d a => { op := 0x50, d := fld8 d, a := fld16 a }
  | .lEncX d a => { op := 0x50, d := fld8 d, a := fld16 a, fn := 1 }
  | .lDec d a b => { op := 0x51, d := fld16 d, a := fld8 a, b := fld16 b }
  | .lDecX d a b => { op := 0x51, d := fld16 d, a := fld8 a, b := fld16 b, fn := 1 }
  | .lPhase d a => { op := 0x52, d := fld16 d, a := fld8 a }
  | .lPhaseX d a => { op := 0x52, d := fld16 d, a := fld8 a, fn := 1 }
  | .lTriv d a => { op := 0x53, d := fld8 d, a := fld16 a }
  | .lTrivX d a => { op := 0x53, d := fld8 d, a := fld16 a, fn := 1 }
  | .lAdd d a => { op := 0x54, d := fld8 d, a := fld8 a }
  | .lSub d a => { op := 0x55, d := fld8 d, a := fld8 a }
  | .lAddmul d a b => { op := 0x56, d := fld8 d, a := fld8 a, b := fld16 b }
  | .lSubmul d a b => { op := 0x57, d := fld8 d, a := fld8 a, b := fld16 b }
  | .lNeg d a => { op := 0x58, d := fld8 d, a := fld8 a }
  | .lCopy d a => { op := 0x59, d := fld8 d, a := fld8 a }
  | .lLd d a imm => { op := 0x5A, d := fld8 d, a := fld16 a, imm := imm }
  | .lLdX d a imm => { op := 0x5A, d := fld8 d, a := fld16 a, imm := imm, fn := 1 }
  | .lSt d a imm => { op := 0x5B, d := fld8 d, a := fld16 a, imm := imm }
  | .keyLdl a imm => { op := 0x5C, a := fld16 a, imm := imm }
  | .rEnc0 d => { op := 0x60, d := fld4 d }
  | .rEnc d a => { op := 0x61, d := fld4 d, a := fld16 a }
  | .rPhase d a => { op := 0x62, d := fld16 d, a := fld4 a }
  | .rTriv d a => { op := 0x63, d := fld4 d, a := fld16 a }
  | .rAdd d a => { op := 0x64, d := fld4 d, a := fld4 a }
  | .rSub d a => { op := 0x65, d := fld4 d, a := fld4 a }
  | .rAddmulr d a b => { op := 0x66, d := fld4 d, a := fld16 a, b := fld4 b }
  | .rMulxaim1 d a b => { op := 0x67, d := fld4 d, a := fld4 a, b := fld16 b }
  | .rExtract d a b => { op := 0x68, d := fld8 d, a := fld4 a, b := fld16 b }
  | .rLd d a imm => { op := 0x69, d := fld4 d, a := fld16 a, imm := imm }
  | .rSt d a imm => { op := 0x6A, d := fld4 d, a := fld16 a, imm := imm }
  | .keyLdr a imm => { op := 0x6B, a := fld16 a, imm := imm }
  | .gDecomp d a => { op := 0x70, d := fld16 d, a := fld16 a }
  | .gEnc a b => { op := 0x71, a := fld16 a, b := fld16 b }
  | .gLd d a imm => { op := 0x72, d := fld16 d, a := fld16 a, imm := imm }
  | .gExtprod d a b => { op := 0x73, d := fld4 d, a := fld4 a, b := fld16 b }
  | .ks d a => { op := 0x78, d := fld8 d, a := fld8 a }
  | .brRot d a b => { op := 0x7C, d := fld4 d, a := fld8 a, b := fld16 b }
  | .bootNks d a b => { op := 0x7D, d := fld8 d, a := fld8 a, b := fld16 b }
  | .boot d a b => { op := 0x7E, d := fld8 d, a := fld8 a, b := fld16 b }

/-- R140, R150: the word of a well-formed instruction. -/
def encode (i : Instr) : InstrWord := (encodeFields i).join

/-! ### The opcode table (R150) -/

/-- R150: one row of the opcode map. -/
structure OpRow where
  mnemonic : String
  pattern : InstrWord
  mask : InstrWord
deriving DecidableEq, Repr

/-- R145: a word matches a row when it has the row's match value under the row's mask. -/
def OpRow.matches (r : OpRow) (w : InstrWord) : Bool := w &&& r.mask == r.pattern

/-- R150: the first half of the opcode map, match and mask as R150 prints them. -/
def opcodeTableLow : List OpRow := [
  ⟨"NOP", 0x0000000000000001, 0xFFFFFFFFFFFFFFFF⟩,
  ⟨"HALT", 0x0000000000000002, 0xFFFFFFFFFFFFFFFF⟩,
  ⟨"CSRR", 0x0000000000000003, 0xFFFFF000FFFFF0FF⟩,
  ⟨"CSRW", 0x0000000000000004, 0xFFFFF000FFFF0FFF⟩,
  ⟨"S.LI", 0x0000000000000010, 0x00000000FFFFF0FF⟩,
  ⟨"S.ADDI", 0x0000000000000011, 0x00000000FFFF00FF⟩,
  ⟨"S.ADD", 0x0000000000000012, 0xFFFFFFFFFFF000FF⟩,
  ⟨"S.SUB", 0x0000000000000013, 0xFFFFFFFFFFF000FF⟩,
  ⟨"S.MUL", 0x0000000000000014, 0xFFFFFFFFFFF000FF⟩,
  ⟨"S.AND", 0x0000000000000015, 0xFFFFFFFFFFF000FF⟩,
  ⟨"S.SLL", 0x0000000000000016, 0xFFFFFFFFFFF000FF⟩,
  ⟨"S.SRL", 0x0000000000000017, 0xFFFFFFFFFFF000FF⟩,
  ⟨"S.LW", 0x0000000000000018, 0x00000000FFFF00FF⟩,
  ⟨"S.SW", 0x0000000000000019, 0x00000000FFFF00FF⟩,
  ⟨"BEQ", 0x0000000000000020, 0x00000000FFF00FFF⟩,
  ⟨"BNE", 0x0000000000000021, 0x00000000FFF00FFF⟩,
  ⟨"BLT", 0x0000000000000022, 0x00000000FFF00FFF⟩,
  ⟨"BLTU", 0x0000000000000023, 0x00000000FFF00FFF⟩,
  ⟨"JMP", 0x0000000000000024, 0x00000000FFFFFFFF⟩,
  ⟨"JAL", 0x0000000000000025, 0x00000000FFFFF0FF⟩,
  ⟨"JR", 0x0000000000000026, 0xFFFFFFFFFFFF0FFF⟩,
  ⟨"MSW.F", 0x0000000000000028, 0xFFFFFFFFFFF000FF⟩,
  ⟨"MSW.T", 0x0000000000000029, 0xFFFFFFFFFFF000FF⟩,
  ⟨"APHASE", 0x000000000000002A, 0xFFFFFFFFFFF000FF⟩,
  ⟨"GAUSS", 0x000000000000002B, 0xFFFFFFFFFFFF00FF⟩,
  ⟨"P.CLR", 0x0000000000000030, 0xFFFFFFFFFFFFF0FF⟩,
  ⟨"P.ADD", 0x0000000000000031, 0xFFFFFFFFFFF000FF⟩,
  ⟨"P.SUB", 0x0000000000000032, 0xFFFFFFFFFFF000FF⟩,
  ⟨"P.ADDMULZ", 0x0000000000000033, 0xFFFFFFFFFFF000FF⟩,
  ⟨"P.MULXAI", 0x0000000000000034, 0xFFFFFFFFFFF000FF⟩,
  ⟨"P.MULXAIM1", 0x0000000000000035, 0xFFFFFFFFFFF000FF⟩,
  ⟨"P.MULFFT", 0x0000000000000036, 0xFFFFFFFFFFF000FF⟩,
  ⟨"P.LD", 0x0000000000000038, 0x00000000FFFF00FF⟩,
  ⟨"P.ST", 0x0000000000000039, 0x00000000FFFF00FF⟩,
  ⟨"F.CLR", 0x0000000000000040, 0xFFFFFFFFFFFFF8FF⟩,
  ⟨"F.FWDI", 0x0000000000000041, 0xFFFFFFFFFFFF08FF⟩,
  ⟨"F.FWDT", 0x0000000000000042, 0xFFFFFFFFFFFF08FF⟩,
  ⟨"F.INV", 0x0000000000000043, 0xFFFFFFFFFFFF80FF⟩,
  ⟨"F.MULADD", 0x0000000000000044, 0xFFFFFFFFFFF888FF⟩]

/-- R150: the second half of the opcode map. -/
def opcodeTableHigh : List OpRow := [
  ⟨"F.MONO", 0x0000000000000045, 0xFFFFFFFFFFFF08FF⟩,
  ⟨"L.ENC", 0x0000000000000050, 0xFFFFFFFFFFFF08FF⟩,
  ⟨"L.ENC.X", 0x0000000001000050, 0xFFFFFFFFFFFF08FF⟩,
  ⟨"L.DEC", 0x0000000000000051, 0xFFFFFFFFFFF080FF⟩,
  ⟨"L.DEC.X", 0x0000000001000051, 0xFFFFFFFFFFF080FF⟩,
  ⟨"L.PHASE", 0x0000000000000052, 0xFFFFFFFFFFFF80FF⟩,
  ⟨"L.PHASE.X", 0x0000000001000052, 0xFFFFFFFFFFFF80FF⟩,
  ⟨"L.TRIV", 0x0000000000000053, 0xFFFFFFFFFFFF08FF⟩,
  ⟨"L.TRIV.X", 0x0000000001000053, 0xFFFFFFFFFFFF08FF⟩,
  ⟨"L.ADD", 0x0000000000000054, 0xFFFFFFFFFFFF88FF⟩,
  ⟨"L.SUB", 0x0000000000000055, 0xFFFFFFFFFFFF88FF⟩,
  ⟨"L.ADDMUL", 0x0000000000000056, 0xFFFFFFFFFFF088FF⟩,
  ⟨"L.SUBMUL", 0x0000000000000057, 0xFFFFFFFFFFF088FF⟩,
  ⟨"L.NEG", 0x0000000000000058, 0xFFFFFFFFFFFF88FF⟩,
  ⟨"L.COPY", 0x0000000000000059, 0xFFFFFFFFFFFF88FF⟩,
  ⟨"L.LD", 0x000000000000005A, 0x00000000FFFF08FF⟩,
  ⟨"L.LD.X", 0x000000000100005A, 0x00000000FFFF08FF⟩,
  ⟨"L.ST", 0x000000000000005B, 0x00000000FFFF08FF⟩,
  ⟨"KEY.LDL", 0x000000000000005C, 0x00000000FFFF0FFF⟩,
  ⟨"R.ENC0", 0x0000000000000060, 0xFFFFFFFFFFFFFCFF⟩,
  ⟨"R.ENC", 0x0000000000000061, 0xFFFFFFFFFFFF0CFF⟩,
  ⟨"R.PHASE", 0x0000000000000062, 0xFFFFFFFFFFFFC0FF⟩,
  ⟨"R.TRIV", 0x0000000000000063, 0xFFFFFFFFFFFF0CFF⟩,
  ⟨"R.ADD", 0x0000000000000064, 0xFFFFFFFFFFFFCCFF⟩,
  ⟨"R.SUB", 0x0000000000000065, 0xFFFFFFFFFFFFCCFF⟩,
  ⟨"R.ADDMULR", 0x0000000000000066, 0xFFFFFFFFFFFC0CFF⟩,
  ⟨"R.MULXAIM1", 0x0000000000000067, 0xFFFFFFFFFFF0CCFF⟩,
  ⟨"R.EXTRACT", 0x0000000000000068, 0xFFFFFFFFFFF0C8FF⟩,
  ⟨"R.LD", 0x0000000000000069, 0x00000000FFFF0CFF⟩,
  ⟨"R.ST", 0x000000000000006A, 0x00000000FFFF0CFF⟩,
  ⟨"KEY.LDR", 0x000000000000006B, 0x00000000FFFF0FFF⟩,
  ⟨"G.DECOMP", 0x0000000000000070, 0xFFFFFFFFFFFF00FF⟩,
  ⟨"G.ENC", 0x0000000000000071, 0xFFFFFFFFFFF00FFF⟩,
  ⟨"G.LD", 0x0000000000000072, 0x00000000FFFF00FF⟩,
  ⟨"G.EXTPROD", 0x0000000000000073, 0xFFFFFFFFFFF0CCFF⟩,
  ⟨"KS", 0x0000000000000078, 0xFFFFFFFFFFFF88FF⟩,
  ⟨"BR.ROT", 0x000000000000007C, 0xFFFFFFFFFFF08CFF⟩,
  ⟨"BOOT.NKS", 0x000000000000007D, 0xFFFFFFFFFFF088FF⟩,
  ⟨"BOOT", 0x000000000000007E, 0xFFFFFFFFFFF088FF⟩]

/-- R150: the opcode map. -/
def opcodeTable : List OpRow := opcodeTableLow ++ opcodeTableHigh

/-- R150: the mnemonic of an instruction. -/
def Instr.mnemonic : Instr → String
  | .nop => "NOP"
  | .halt => "HALT"
  | .csrr .. => "CSRR"
  | .csrw .. => "CSRW"
  | .sLi .. => "S.LI"
  | .sAddi .. => "S.ADDI"
  | .sAdd .. => "S.ADD"
  | .sSub .. => "S.SUB"
  | .sMul .. => "S.MUL"
  | .sAnd .. => "S.AND"
  | .sSll .. => "S.SLL"
  | .sSrl .. => "S.SRL"
  | .sLw .. => "S.LW"
  | .sSw .. => "S.SW"
  | .beq .. => "BEQ"
  | .bne .. => "BNE"
  | .blt .. => "BLT"
  | .bltu .. => "BLTU"
  | .jmp .. => "JMP"
  | .jal .. => "JAL"
  | .jr .. => "JR"
  | .mswF .. => "MSW.F"
  | .mswT .. => "MSW.T"
  | .aphase .. => "APHASE"
  | .gauss .. => "GAUSS"
  | .pClr .. => "P.CLR"
  | .pAdd .. => "P.ADD"
  | .pSub .. => "P.SUB"
  | .pAddmulz .. => "P.ADDMULZ"
  | .pMulxai .. => "P.MULXAI"
  | .pMulxaim1 .. => "P.MULXAIM1"
  | .pMulfft .. => "P.MULFFT"
  | .pLd .. => "P.LD"
  | .pSt .. => "P.ST"
  | .fClr .. => "F.CLR"
  | .fFwdi .. => "F.FWDI"
  | .fFwdt .. => "F.FWDT"
  | .fInv .. => "F.INV"
  | .fMuladd .. => "F.MULADD"
  | .fMono .. => "F.MONO"
  | .lEnc .. => "L.ENC"
  | .lEncX .. => "L.ENC.X"
  | .lDec .. => "L.DEC"
  | .lDecX .. => "L.DEC.X"
  | .lPhase .. => "L.PHASE"
  | .lPhaseX .. => "L.PHASE.X"
  | .lTriv .. => "L.TRIV"
  | .lTrivX .. => "L.TRIV.X"
  | .lAdd .. => "L.ADD"
  | .lSub .. => "L.SUB"
  | .lAddmul .. => "L.ADDMUL"
  | .lSubmul .. => "L.SUBMUL"
  | .lNeg .. => "L.NEG"
  | .lCopy .. => "L.COPY"
  | .lLd .. => "L.LD"
  | .lLdX .. => "L.LD.X"
  | .lSt .. => "L.ST"
  | .keyLdl .. => "KEY.LDL"
  | .rEnc0 .. => "R.ENC0"
  | .rEnc .. => "R.ENC"
  | .rPhase .. => "R.PHASE"
  | .rTriv .. => "R.TRIV"
  | .rAdd .. => "R.ADD"
  | .rSub .. => "R.SUB"
  | .rAddmulr .. => "R.ADDMULR"
  | .rMulxaim1 .. => "R.MULXAIM1"
  | .rExtract .. => "R.EXTRACT"
  | .rLd .. => "R.LD"
  | .rSt .. => "R.ST"
  | .keyLdr .. => "KEY.LDR"
  | .gDecomp .. => "G.DECOMP"
  | .gEnc .. => "G.ENC"
  | .gLd .. => "G.LD"
  | .gExtprod .. => "G.EXTPROD"
  | .ks .. => "KS"
  | .brRot .. => "BR.ROT"
  | .bootNks .. => "BOOT.NKS"
  | .boot .. => "BOOT"

end Sys2Proof
end

