-- ==== Sys2Proof/Config.lean ====
section
/-! DEFINITION. Config.lean: what the spec leaves to an implementation or to chance.
The constants of R8; the DEFAULTS of the sizes of R9 (the sizes themselves stand in State, so that
every statement holds for every size); the OPEN bounds of R9; and the free values: the draws of R16
and the bit pattern of a NaN result. Every `opaque` constant has no body: nothing can be proved about
its value, and a claim holds only if it holds for every value (R16). -/

namespace Sys2Proof.Config

/-- R8 NMAX: the largest ring degree. -/
def nMax : Nat := 2048

/-- R8 DIMMAX: the largest LWE dimension of an L register. -/
def dimMax : Nat := 4096

/-- R9: default IMEM_SIZE in bytes. -/
def imemSizeDefault : Nat := 65536

/-- R9: default DMEM_SIZE in bytes, 2^28. -/
def dmemSizeDefault : Nat := 268435456

/-- R9: default BK_SLOTS. -/
def bkSlotsDefault : Nat := 1024

/-- R9 GAUSS_BOUND(α): the OPEN bound on one Gaussian draw; `none` is ∞. Free (log 3). -/
opaque gaussBound : F64 → Option Nat

/-- R9 FFT_ERR_BOUND(b, c, N): the OPEN rounding bound of an accumulation of products; `none` is ∞.
Free (log 3). -/
opaque fftErrBound (b c n : Nat) : Option Nat

/-- R9 FFT_WIDE_ERR(b, N): the OPEN rounding bound of one product with a wide integer operand;
`none` is ∞. Free (log 3). -/
opaque fftWideErr (b n : Nat) : Option Nat

/-- R16 Draw.U32(): the value of the draw numbered `k`. Free (log 2). -/
opaque freeU32 (k : Nat) : Word

/-- R16 Draw.Word(): what the draw numbered `k` reads from a never-written word (R107). Free (log 2). -/
opaque freeWord (k : Nat) : Word

/-- R16 Draw.F64(): the value of the draw numbered `k`, used for an unspecified variance. Free (log 2). -/
opaque freeF64 (k : Nat) : F64

/-- R16 Draw.Gauss(α): the integer behind the draw numbered `k`, before GAUSS_BOUND limits it. Free
(log 2). -/
opaque freeGauss (k : Nat) : Int

/-- R16 Draw.Err(β): the integer behind the draw numbered `k`, before β limits it. Free (log 2). -/
opaque freeErr (k : Nat) : Int

/-- The sign (bit 51) and payload (bits 50:0) of the quiet NaN that an f64 sum of the two operands
gives (R18: NaN propagates by IEEE 754, which fixes neither). Free (log 4). -/
opaque freeNaNAdd (x y : F64) : BitVec 52

/-- The sign (bit 51) and payload (bits 50:0) of the quiet NaN that an f64 product of the two operands
gives (R18). Free (log 4). -/
opaque freeNaNMul (x y : F64) : BitVec 52

end Sys2Proof.Config
end

