-- ==== Sys2Proof/Machine/F64.lean ====
section
/-! DEFINITION. Machine/F64.lean: the binary64 operations of spec R18 (f64add, f64mul, f64fromInt), all
roundTiesToEven, on bit patterns. The format and the operations are IEEE 754's (R18; 93_implementation_defined.md
K1; log 13). A finite value is an integer multiple of 2^−1074; every operation is computed exactly on
integers and rounded once, by `f64Round`. -/

namespace Sys2Proof.Machine

/-- The sign bit. -/
def f64Neg (x : F64) : Bool := x.getLsbD 63

/-- The biased exponent field, bits 62:52. -/
def f64Exp (x : F64) : Nat := (x.extractLsb' 52 11).toNat

/-- The fraction field, bits 51:0. -/
def f64Frac (x : F64) : Nat := (x.extractLsb' 0 52).toNat

/-- Infinity of either sign. -/
def f64IsInf (x : F64) : Bool := f64Exp x == 2047 && f64Frac x == 0

/-- A NaN, quiet or signalling. -/
def f64IsNaN (x : F64) : Bool := f64Exp x == 2047 && f64Frac x != 0

/-- The magnitude of a finite value, in units of 2^−1074. -/
def f64Mag (x : F64) : Nat :=
  if f64Exp x == 0 then f64Frac x else (2 ^ 52 + f64Frac x) * 2 ^ (f64Exp x - 1)

/-- A finite value, in units of 2^−1074. -/
def f64Val (x : F64) : Int := if f64Neg x then -(f64Mag x : Int) else f64Mag x

/-- The bit pattern with the given sign and the given low 63 bits. -/
def f64Make (neg : Bool) (mag : Nat) : F64 := BitVec.ofNat 64 ((if neg then 2 ^ 63 else 0) + mag)

/-- The low 63 bits of infinity. -/
def f64InfMag : Nat := 2047 * 2 ^ 52

/-- +0.0. -/
def f64Zero : F64 := 0

/-- roundTiesToEven of the quotient `m / 2^sh`. -/
def roundHalfEven (m sh : Nat) : Nat :=
  let q := m / 2 ^ sh
  let r := m % 2 ^ sh
  if 2 ^ sh < 2 * r || (2 * r == 2 ^ sh && q % 2 == 1) then q + 1 else q

/-- The low 63 bits of the binary64 value nearest to `m · 2^−2148`, ties to even; infinity on overflow.
The unit in the last place of the result is 2^(sh − 2148), at least 2^−1074. -/
def f64RoundMag (m : Nat) : Nat :=
  let sh := max (m.log2 - 52) 1074
  min ((sh - 1074) * 2 ^ 52 + roundHalfEven m sh) f64InfMag

/-- The binary64 value nearest to ± `m · 2^−2148`. -/
def f64Round (neg : Bool) (m : Nat) : F64 := f64Make neg (f64RoundMag m)

/-- A quiet NaN with the given sign (bit 51) and payload (bits 50:0). -/
def f64QuietNaN (x : BitVec 52) : F64 :=
  f64Make (x.getLsbD 51) (f64InfMag + 2 ^ 51 + (x.extractLsb' 0 51).toNat)

/-- R18 f64add. -/
def f64add (x y : F64) : F64 :=
  if f64IsNaN x || f64IsNaN y then f64QuietNaN (Config.freeNaNAdd x y)
  else if f64IsInf x then
    if f64IsInf y && f64Neg x != f64Neg y then f64QuietNaN (Config.freeNaNAdd x y) else x
  else if f64IsInf y then y
  else
    let v := f64Val x + f64Val y
    if v = 0 then f64Make (f64Neg x && f64Neg y) 0
    else f64Round (v < 0) (v.natAbs * 2 ^ 1074)

/-- R18 f64mul. -/
def f64mul (x y : F64) : F64 :=
  let neg := f64Neg x != f64Neg y
  if f64IsNaN x || f64IsNaN y then f64QuietNaN (Config.freeNaNMul x y)
  else if f64IsInf x || f64IsInf y then
    if f64Mag x == 0 || f64Mag y == 0 then f64QuietNaN (Config.freeNaNMul x y)
    else f64Make neg f64InfMag
  else f64Round neg (f64Mag x * f64Mag y)

/-- R18 f64fromInt: the exact integer, rounded once. -/
def f64fromInt (z : Int) : F64 := f64Round (z < 0) (z.natAbs * 2 ^ 2148)

end Sys2Proof.Machine
end

