-- ==== Sys2Proof/Machine/Ring.lean ====
section
/-! DEFINITION. Machine/Ring.lean: the arithmetic the spec defines outside its instructions, as functions
of vectors and integers: vectors of coefficients, the negacyclic rotation and product (R17, R282,
R283), signed widths (R17), torus rounding (R261 to R263), inner products (R352), the gadget
(R430 to R433) and key-switch digits (R462, R463). A vector is a list; an entry beyond a list's end reads as
0, which no reachable state shows (log 11). -/

open scoped BigOperators

namespace Sys2Proof.Machine

/-! ### Vectors -/

/-- The vector `[f 0, …, f (n−1)]`: the spec's `for i in [0, n)`. -/
def vec {α : Type} (n : Nat) (f : Nat → α) : List α := (List.range n).map f

/-- Coefficient `i` of a word vector. -/
def coeff (c : List Word) (i : Nat) : Word := c.getD i 0

/-- Entry `i` of an integer vector. -/
def icoeff (x : List Int) (i : Nat) : Int := x.getD i 0

/-- Bit `i` of a binary key as an integer, 0 or 1. -/
def bitAt (s : List Bool) (i : Nat) : Int := if s.getD i false then 1 else 0

/-- The first `n` coefficients read as signed integers (R281: the IntPoly reading). -/
def ints (n : Nat) (c : List Word) : List Int := vec n fun i => s32 (coeff c i)

/-- A binary key polynomial as an integer vector (R391). -/
def keyInts (n : Nat) (s : List Bool) : List Int := vec n fun i => bitAt s i

/-! ### The ring Z[X]/(X^N + 1) -/

/-- R282: `rot(e, src)`, multiplication by X^e, for 0 ≤ e < 2n. -/
def rot (n e : Nat) (src : List Word) : List Word :=
  vec n fun i =>
    if e < n then
      if e ≤ i then coeff src (i - e) else -coeff src (i + n - e)
    else
      if e - n ≤ i then -coeff src (i - (e - n)) else coeff src (i + n - (e - n))

/-- R17: coefficient `i` of the negacyclic product over the integers. -/
def nprodAt (n : Nat) (x y : List Int) (i : Nat) : Int :=
  (∑ j ∈ Finset.range (i + 1), icoeff x j * icoeff y (i - j))
    - ∑ j ∈ Finset.Ico (i + 1) n, icoeff x j * icoeff y (i + n - j)

/-- R17: `nprod(x, y)`. -/
def nprod (n : Nat) (x y : List Int) : List Int := vec n (nprodAt n x y)

/-- R17: the least b ≥ 1 with `−2^(b−1) ≤ z < 2^(b−1)`. -/
def sbits1 (z : Int) : Nat :=
  let m := if z < 0 then (-z - 1).toNat else z.toNat
  if m = 0 then 1 else m.log2 + 2

/-- R17: `sbits(x)`, the least b ≥ 1 that holds every entry. -/
def sbits (x : List Int) : Nat := x.foldl (fun b z => max b (sbits1 z)) 1

/-! ### Torus rounding -/

/-- R261: `msfrom(x, M)`, M ≥ 1. -/
def msfrom (x : Word) (m : Nat) : Nat := (x.toNat * m + 2 ^ 31) / 2 ^ 32 % m

/-- R262: `mstot(μ, M)`, 0 ≤ μ < M. -/
def mstot (mu m : Nat) : Nat := (2 * mu * 2 ^ 32 + m) / (2 * m)

/-- R263: `approx(x, M)`. -/
def approx (x : Word) (m : Nat) : Word := BitVec.ofNat 32 (mstot (msfrom x m) m)

/-! ### Inner products -/

/-- R352: `dot(a, s)` over `n` entries. -/
def dot (n : Nat) (a : List Word) (s : List Bool) : Word :=
  u32 (∑ i ∈ Finset.range n, ((coeff a i).toNat : Int) * bitAt s i)

/-! ### The gadget -/

/-- R430: `H[j]`. -/
def gadgetH (bgbit j : Nat) : Nat := 2 ^ (32 - (j + 1) * bgbit)

/-- R432: `offset`. -/
def decOffset (l bgbit : Nat) : Word :=
  BitVec.ofNat 32 (2 ^ (bgbit - 1) * ∑ j ∈ Finset.range l, gadgetH bgbit j)

/-- R433: digit `j` of the decomposition of `x`. -/
def decDigit (l bgbit j : Nat) (x : Word) : Int :=
  (((x + decOffset l bgbit).toNat / 2 ^ (32 - (j + 1) * bgbit) % 2 ^ bgbit : Nat) : Int) - 2 ^ (bgbit - 1)

/-- R433, R443: digit `j` of every coefficient of a polynomial. -/
def decPoly (n l bgbit j : Nat) (c : List Word) : List Int := vec n fun t => decDigit l bgbit j (coeff c t)

/-! ### Key-switch digits -/

/-- R462: `KS_PREC`. -/
def ksPrec (t bb : Nat) : Word := BitVec.ofNat 32 (2 ^ (31 - t * bb))

/-- R463: digit `w_j` of `a_i`. -/
def ksDigit (t bb j : Nat) (a : Word) : Nat :=
  (a + ksPrec t bb).toNat / 2 ^ (32 - (j + 1) * bb) % 2 ^ bb

end Sys2Proof.Machine
end

