-- ==== Sys2Proof/Machine/State.lean ====
section
/-! DEFINITION. Machine/State.lean: the architectural state of one CORE (spec 10_state.md R30) as plain
data, the (empty) type of model faults, the refusals, and the state after power-on reset (R75, R570). -/

namespace Sys2Proof.Machine

/-- R41: the run state; codes 0 to 3 in this order. -/
inductive RunState where
  | idle | running | halted | faulted
deriving DecidableEq, Repr

/-- R521: the cause of the last fault; codes 0 to 10 in this order. No other code exists. -/
inductive Cause where
  | none | illegalInstr | fetchMisaligned | fetchOob | dmemMisaligned | dmemOob | badParam
  | paramMismatch | uninit | badOperand | illegalCsr
deriving DecidableEq, Repr

/-- R522: the files that UNINIT and PARAM_MISMATCH name; codes 0 to 7 in this order. -/
inductive RegFile where
  | s | p | f | l | r | bk | keyL | keyR
deriving DecidableEq, Repr

/-- R321: the error class of a Fourier register. -/
inductive ErrClass where
  /-- zero, from F.CLR -/
  | z
  /-- I(b): the transform of an IntPoly of signed width b -/
  | i (b : Nat)
  /-- T: the transform of a TorusPoly -/
  | t
  /-- M(b, c): a sum of c products of an I(b'), b' ≤ b, and a T -/
  | m (b c : Nat)
  /-- G: anything else -/
  | g
deriving DecidableEq, Repr

/-- R34: the contents of a valid P register. -/
structure PReg where
  deg : Nat
  c : List Word
deriving DecidableEq, Repr

/-- R35, R320: the contents of a valid F register. -/
structure FReg where
  deg : Nat
  v : List Int
  cls : ErrClass
deriving DecidableEq, Repr

/-- R36: the contents of a valid L register. -/
structure LReg where
  dim : Nat
  a : List Word
  b : Word
  var : F64
deriving DecidableEq, Repr

/-- An RLWE value: its k+1 polynomials and its variance (R37, R38). -/
structure Rlwe where
  comp : List (List Word)
  var : F64
deriving DecidableEq, Repr

/-- R37: the contents of a valid R register. -/
structure RReg where
  deg : Nat
  k : Nat
  val : Rlwe
deriving DecidableEq, Repr

/-- R38: the contents of a valid BK slot; row p = i·l + j. -/
structure Rgsw where
  deg : Nat
  k : Nat
  l : Nat
  bgbit : Nat
  rows : List Rlwe
deriving DecidableEq, Repr

/-- R39: the LWE key; every s[i] ∈ {0, 1} is a Bool. -/
structure KeyL where
  dim : Nat
  s : List Bool
deriving DecidableEq, Repr

/-- R40: the RLWE key, k binary polynomials. -/
structure KeyR where
  deg : Nat
  k : Nat
  s : List (List Bool)
deriving DecidableEq, Repr

/-- R51: the parameter CSRs, each a whole word. -/
structure Csrs where
  n : Word
  k : Word
  lweN : Word
  bkL : Word
  bkBgbit : Word
  ksT : Word
  ksBasebit : Word
  alphaLo : Word
  alphaHi : Word
  kskBase : Word
deriving DecidableEq, Repr

/-- R9: the sizes a model takes as arguments. No step changes them (log 6). -/
structure Params where
  imemSize : Nat
  dmemSize : Nat
  bkSlots : Nat
deriving DecidableEq, Repr

/-- One turn of the host (R540): it lets the sequencer take a step, or it makes one access of the host
port. The model's own (log 5). -/
inductive HostTurn where
  | quiet
  | read (off : Word)
  | write (off v : Word)
deriving DecidableEq, Repr

/-- Data held by key: a list of (key, value) pairs, keys strictly rising. -/
abbrev Assoc (α : Type) := List (Nat × α)

/-- A byte memory (R71, R100): the bytes written since power-on, addresses strictly rising. An unlisted
byte holds no value: a word that is not wholly listed reads as a draw (R107). -/
abbrev Memory := List Host.Cell

/-- R30: the architectural state of one CORE. -/
structure State where
  /-- R9: IMEM_SIZE, DMEM_SIZE, BK_SLOTS. -/
  params : Params
  /-- R32: S0..S15; `none` is a clear valid bit. Entry 0 stays `some 0`. -/
  sRegs : Vector (Option Word) 16
  /-- R34: P0..P15. -/
  pRegs : Vector (Option PReg) 16
  /-- R35: F0..F7. -/
  fRegs : Vector (Option FReg) 8
  /-- R36: L0..L7. -/
  lRegs : Vector (Option LReg) 8
  /-- R37: R0..R3. -/
  rRegs : Vector (Option RReg) 4
  /-- R38: the valid slots of the bootstrapping-key store. -/
  bk : Assoc Rgsw
  /-- R39. -/
  keyL : Option KeyL
  /-- R40. -/
  keyR : Option KeyR
  /-- R33. -/
  pc : Word
  /-- R41. -/
  runState : RunState
  /-- R51. -/
  csr : Csrs
  /-- R64. -/
  startPc : Word
  /-- R65. -/
  cause : Cause
  /-- R65. -/
  faultPc : Word
  /-- R65. -/
  faultInfo : Word
  /-- R62. -/
  irqPending : Bool
  /-- R63: bit 0 of IRQ_EN. -/
  irqEn : Bool
  /-- R71, R100. -/
  imem : Memory
  /-- R71, R100. -/
  dmem : Memory
  /-- The number of draws made so far: the model's own (log 2). -/
  drawCtr : Nat
  /-- The host's coming turns: the model's own (log 5). -/
  hostIn : List HostTurn
  /-- The words host reads have returned, newest first: the model's own (log 5). -/
  hostOut : List Word
deriving DecidableEq, Repr

/-- Why a step could stop the MODEL with a fault: never. Every error of the spec is a fault of the
CORE, and that is a next state with STATE = FAULTED (R523), so this type has no constructor, nobody
raises one, and no claim can hide behind a fault (safe; log 17). -/
inductive Fault where
deriving DecidableEq, Repr

/-- Why a step could refuse an instruction. -/
inductive Refusal where
  /-- Raised by an arm of `exec` whose instruction has no meaning yet (safe). No arm raises it. -/
  | notModelled (mnemonic : String)
deriving DecidableEq, Repr

/-- R51, R75: the parameter CSRs after reset, the "128-bit" set with α = 2^−15. -/
def Csrs.reset : Csrs where
  n := 1024
  k := 1
  lweN := 630
  bkL := 3
  bkBgbit := 7
  ksT := 8
  ksBasebit := 2
  alphaLo := 0x00000000
  alphaHi := 0x3F000000
  kskBase := 0

/-- R9: the spec's default sizes. -/
def Params.default : Params where
  imemSize := Config.imemSizeDefault
  dmemSize := Config.dmemSizeDefault
  bkSlots := Config.bkSlotsDefault

/-- R75, R570: a CORE of the given sizes right after power-on reset. -/
def State.powerOn (p : Params) : State where
  params := p
  sRegs := (Vector.replicate 16 none).set 0 (some 0)
  pRegs := Vector.replicate 16 none
  fRegs := Vector.replicate 8 none
  lRegs := Vector.replicate 8 none
  rRegs := Vector.replicate 4 none
  bk := []
  keyL := none
  keyR := none
  pc := 0
  runState := .idle
  csr := Csrs.reset
  startPc := 0
  cause := .none
  faultPc := 0
  faultInfo := 0
  irqPending := false
  irqEn := false
  imem := []
  dmem := []
  drawCtr := 0
  hostIn := []
  hostOut := []

/-- The machine right after power-on reset, at the default sizes (R9, R75). -/
def State.reset : State := State.powerOn Params.default

end Sys2Proof.Machine
end

