-- ==== Sys2Proof/Machine/Ops.lean ====
section
/-! DEFINITION. Machine/Ops.lean: the named operations over memory, registers and the run state: byte
memories and their words (R14, R103 to R107), draws (R16), register reads and writes (R31 to R40), the
parameter values and predicates (R51, R52), taking a fault (R523), START (R542) and host reset (R571). -/

namespace Sys2Proof.Machine

/-- What an instruction answers. -/
abbrev Result := Host.Outcome State Fault Refusal

/-! ### Data held by key -/

/-- The value at a key. -/
def assocGet {α : Type} : Assoc α → Nat → Option α
  | [], _ => none
  | (a, v) :: m, k => if k = a then some v else assocGet m k

/-- Writes a value at a key, keeping the keys strictly rising. -/
def assocSet {α : Type} : Assoc α → Nat → α → Assoc α
  | [], k, v => [(k, v)]
  | (a, w) :: m, k, v =>
    if k < a then (k, v) :: (a, w) :: m
    else if k = a then (k, v) :: m
    else (a, w) :: assocSet m k v

/-- The canonical form: keys strictly rising. -/
abbrev Assoc.wf {α : Type} (m : Assoc α) : Prop := List.Pairwise (fun x y => x.1 < y.1) m

/-- The canonical form of a memory: addresses strictly rising. An unlisted byte holds no value, so no
listed byte equals what an unlisted one reads as. -/
abbrev Memory.wf (m : Memory) : Prop := List.Pairwise (fun (x y : Nat × Byte) => x.1 < y.1) m

/-! ### Words of a byte memory -/

/-- The byte last written at an address, if one was (R107). -/
def memByte (m : Memory) (addr : Nat) : Option Byte := assocGet m addr

/-- R103: the little-endian word at an address, if it has been wholly written (R107). -/
def memWord (m : Memory) (addr : Nat) : Option Word :=
  match memByte m addr, memByte m (addr + 1), memByte m (addr + 2), memByte m (addr + 3) with
  | some b0, some b1, some b2, some b3 => some (b3 ++ b2 ++ b1 ++ b0)
  | _, _, _, _ => none

/-- R103: byte `i` of a word, byte 0 the least significant. -/
def wordByte (w : Word) (i : Nat) : Byte := w.extractLsb' (8 * i) 8

/-- R14 MemWrite(addr, 4, w): the four bytes of a word, least significant first. -/
def memSetWord (m : Memory) (addr : Nat) (w : Word) : Memory :=
  assocSet (assocSet (assocSet (assocSet m addr (wordByte w 0)) (addr + 1) (wordByte w 1))
    (addr + 2) (wordByte w 2)) (addr + 3) (wordByte w 3)

/-- R14 WriteWords: consecutive words, in increasing order (R104). -/
def storeWords (m : Memory) (addr : Nat) : List Word → Memory
  | [] => m
  | w :: ws => storeWords (memSetWord m addr w) (addr + 4) ws

/-- Whether every word of a run has been wholly written (R107). -/
def spanWritten (m : Memory) (addr cnt : Nat) : Bool :=
  (List.range cnt).all fun i => (memWord m (addr + 4 * i)).isSome

/-- R14 ReadWords: the words of a run and the draw counter afterwards. A never-written word is the
draw Draw.Word() of R107; the draws of one run are numbered from `k` by the word's place. -/
def loadWords (m : Memory) (k addr cnt : Nat) : List Word × Nat :=
  (vec cnt fun i => (memWord m (addr + 4 * i)).getD (Config.freeWord (k + i)),
   if spanWritten m addr cnt then k else k + cnt)

/-! ### Draws (R16) -/

/-- A draw limited to `|e| ≤ β`; `none` is ∞. Every value within the limit is some raw value's. -/
def bounded (beta : Option Nat) (raw : Int) : Int :=
  match beta with
  | none => raw
  | some b => (raw + b) % (2 * b + 1) - b

/-- Draw.Gauss(α), the draw numbered `k` (R16, R264). -/
def drawGauss (alpha : F64) (k : Nat) : Int := bounded (Config.gaussBound alpha) (Config.freeGauss k)

/-- Draw.Err(β), the draw numbered `k` (R16, R322). -/
def drawErr (beta : Option Nat) (k : Nat) : Int := bounded beta (Config.freeErr k)

/-- R323: β(cls), the rounding bound of an inverse transform; `none` is ∞. -/
def errBound (n : Nat) : ErrClass → Option Nat
  | .z => some 0
  | .i b => if b ≤ 20 then some 0 else some 1
  | .t => some 1
  | .m b c => if 2 ≤ c then Config.fftErrBound b c n else if b ≤ 10 then some 1 else Config.fftWideErr b n
  | .g => none

/-- `n` draws have been made. -/
def State.bump (s : State) (n : Nat) : State := { s with drawCtr := s.drawCtr + n }

/-! ### Parameters (R51, R52, R55) -/

/-- N of R51. -/
def State.ringN (s : State) : Nat := s.csr.n.toNat
/-- k of R51. -/
def State.rankK (s : State) : Nat := s.csr.k.toNat
/-- n of R51. -/
def State.lweN (s : State) : Nat := s.csr.lweN.toNat
/-- l of R51. -/
def State.gadL (s : State) : Nat := s.csr.bkL.toNat
/-- Bgbit of R51. -/
def State.gadBits (s : State) : Nat := s.csr.bkBgbit.toNat
/-- t of R51. -/
def State.ksT (s : State) : Nat := s.csr.ksT.toNat
/-- base_bit of R51. -/
def State.ksBits (s : State) : Nat := s.csr.ksBasebit.toNat
/-- R55: α = ENC_ALPHA_HI ‖ ENC_ALPHA_LO. -/
def State.alpha (s : State) : F64 := s.csr.alphaHi ++ s.csr.alphaLo

/-- R52 N_OK. -/
def State.nOk (s : State) : Bool := [2, 4, 8, 16, 32, 64, 128, 256, 512, 1024, 2048].contains s.ringN
/-- R52 K_OK. -/
def State.kOk (s : State) : Bool := s.rankK == 1 || s.rankK == 2
/-- R52 RING_OK. -/
def State.ringOk (s : State) : Bool := s.nOk && s.kOk
/-- R52 LWE_OK. -/
def State.lweOk (s : State) : Bool := 1 ≤ s.lweN && s.lweN ≤ Config.dimMax
/-- R52 GAD_OK, with an exact product. -/
def State.gadOk (s : State) : Bool := 1 ≤ s.gadL && 1 ≤ s.gadBits && s.gadL * s.gadBits ≤ 32
/-- R52 KS_OK, with an exact product. -/
def State.ksOk (s : State) : Bool := 1 ≤ s.ksT && 1 ≤ s.ksBits && s.ksT * s.ksBits ≤ 31
/-- R52 BK_FIT. -/
def State.bkFit (s : State) : Bool := s.lweN ≤ s.params.bkSlots

/-- R430 kpl. -/
def State.kpl (s : State) : Nat := (s.rankK + 1) * s.gadL
/-- R53 EXT_N: the extracted dimension k·N. -/
def State.extN (s : State) : Nat := s.rankK * s.ringN

/-- R111 LSTRIDE(d). -/
def lStride (d : Nat) : Nat := 4 * d + 12
/-- R113 RSTRIDE. -/
def rStride (n k : Nat) : Nat := 4 * (k + 1) * n + 8

/-! ### Registers -/

/-- R32, R201: S0 reads 0 and is always valid. -/
def State.getS (s : State) (i : SIdx) : Option Word := if i = 0 then some 0 else s.sRegs[i]

/-- R32, R202: a write to S0 is discarded; any other sets the valid bit. -/
def State.setS (s : State) (d : SIdx) (v : Word) : State :=
  if d = 0 then s else { s with sRegs := s.sRegs.set d (some v) }

/-- R34: a P write sets deg = CSR.N. -/
def State.setP (s : State) (d : PIdx) (c : List Word) : State :=
  { s with pRegs := s.pRegs.set d (some { deg := s.ringN, c := c }) }

/-- R320: an F write sets deg = CSR.N. -/
def State.setF (s : State) (d : FIdx) (v : List Int) (cls : ErrClass) : State :=
  { s with fRegs := s.fRegs.set d (some { deg := s.ringN, v := v, cls := cls }) }

/-- R351: an L write sets dim, a, b, var and the valid bit. -/
def State.setL (s : State) (d : LIdx) (x : LReg) : State := { s with lRegs := s.lRegs.set d (some x) }

/-- R37: an R write sets deg = CSR.N and k = CSR.K. -/
def State.setR (s : State) (d : RIdx) (x : Rlwe) : State :=
  { s with rRegs := s.rRegs.set d (some { deg := s.ringN, k := s.rankK, val := x }) }

/-- R38: the contents of a BK slot, if it is valid. -/
def State.getBk (s : State) (slot : Nat) : Option Rgsw := assocGet s.bk slot

/-- R441, R442: a BK write sets the tags (N, k, l, Bgbit). -/
def State.setBk (s : State) (slot : Nat) (rows : List Rlwe) : State :=
  { s with bk := assocSet s.bk slot ⟨s.ringN, s.rankK, s.gadL, s.gadBits, rows⟩ }

/-- R372: KEYL <- (LWE_N, bits). -/
def State.setKeyL (s : State) (bits : List Bool) : State :=
  { s with keyL := some { dim := s.lweN, s := bits } }

/-- R411: KEYR <- (N, k, polynomials). -/
def State.setKeyR (s : State) (polys : List (List Bool)) : State :=
  { s with keyR := some { deg := s.ringN, k := s.rankK, s := polys } }

/-- R14: WriteWords into DMEM. -/
def State.store (s : State) (addr : Nat) (ws : List Word) : State :=
  { s with dmem := storeWords s.dmem addr ws }

/-- R203: pc <- u32(pc + 8). -/
def State.advance (s : State) : State := { s with pc := s.pc + 8 }

/-- A control transfer: pc <- target (R224 to R230). -/
def State.jump (s : State) (target : Word) : State := { s with pc := target }

/-- R203: an instruction that is no control transfer completes. -/
def done (s : State) : Result := .next s.advance

/-! ### Faults, START and reset -/

/-- R521: the cause code. -/
def Cause.code : Cause → Word
  | .none => 0
  | .illegalInstr => 1
  | .fetchMisaligned => 2
  | .fetchOob => 3
  | .dmemMisaligned => 4
  | .dmemOob => 5
  | .badParam => 6
  | .paramMismatch => 7
  | .uninit => 8
  | .badOperand => 9
  | .illegalCsr => 10

/-- R522: the file number in FAULT_INFO. -/
def RegFile.code : RegFile → Nat
  | .s => 0
  | .p => 1
  | .f => 2
  | .l => 3
  | .r => 4
  | .bk => 5
  | .keyL => 6
  | .keyR => 7

/-- R41: the code of STATE. -/
def RunState.code : RunState → Word
  | .idle => 0
  | .running => 1
  | .halted => 2
  | .faulted => 3

/-- A fault to raise: its cause (R521) and its FAULT_INFO (R522). -/
structure Exc where
  cause : Cause
  info : Word
deriving DecidableEq, Repr

/-- R522: `(file << 16) | index`. -/
def regInfo (file : RegFile) (i : Nat) : Word := BitVec.ofNat 32 (file.code * 2 ^ 16 + i)

/-- UNINIT(file, index). -/
def Exc.uninit (file : RegFile) (i : Nat) : Exc := ⟨.uninit, regInfo file i⟩
/-- PARAM_MISMATCH(file, index). -/
def Exc.mismatch (file : RegFile) (i : Nat) : Exc := ⟨.paramMismatch, regInfo file i⟩
/-- BAD_PARAM(csr). -/
def Exc.badParam (csr : Nat) : Exc := ⟨.badParam, BitVec.ofNat 32 csr⟩
/-- BAD_OPERAND(value). -/
def Exc.badOperand (v : Word) : Exc := ⟨.badOperand, v⟩
/-- ILLEGAL_CSR(csr). -/
def Exc.illegalCsr (csr : Nat) : Exc := ⟨.illegalCsr, BitVec.ofNat 32 csr⟩
/-- ILLEGAL_INSTR(word[31:0]). -/
def Exc.illegalInstr (w : InstrWord) : Exc := ⟨.illegalInstr, w.extractLsb' 0 32⟩

/-- R523, the ONE way a fault is taken: STATE, CAUSE, FAULT_PC, FAULT_INFO and IRQ_PENDING are written
and nothing else is; pc keeps the faulting address. -/
def State.takeFault (s : State) (x : Exc) : State :=
  { s with runState := .faulted, cause := x.cause, faultPc := s.pc, faultInfo := x.info, irqPending := true }

/-- R15, R523: `raise X(info)` ends the instruction. A fault of the CORE is a next state. -/
def raise (s : State) (x : Exc) : Result := .next (s.takeFault x)

/-- R211: HALT stops the sequencer and leaves pc at its own address. -/
def State.halt (s : State) : State := { s with runState := .halted, irqPending := true }

/-- R542: START, the only way on after a stop. There is no return from a fault (R532). -/
def State.start (s : State) : State :=
  { s with pc := s.startPc, cause := .none, faultPc := 0, faultInfo := 0, irqPending := false, runState := .running }

/-- R570, R571: host reset. Everything takes the value of R75 but the two memories. (The sizes of R9 and
the model's own fields are no part of the CORE's resettable state.) -/
def State.hostReset (s : State) : State :=
  { State.powerOn s.params with
    imem := s.imem, dmem := s.dmem, drawCtr := s.drawCtr, hostIn := s.hostIn, hostOut := s.hostOut }

end Sys2Proof.Machine
end

