-- ==== Sys2Proof/Machine/Operands.lean ====
section
/-! DEFINITION. Machine/Operands.lean: every operand form and check of the instruction rules, each as a
step that goes on with `k` or raises its fault. An instruction names its checks in the order its own
rule lists them (R530), and all of them stand before its one write (R15). -/

namespace Sys2Proof.Machine

/-- R15: `check c else raise x`. -/
def need (s : State) (c : Bool) (x : Exc) (k : Unit → Result) : Result :=
  if c then k () else raise s x

/-! ### Parameter predicates (R52, R530 item 5) -/

/-- N_OK, else BAD_PARAM(N). -/
def needN (s : State) (k : Unit → Result) : Result := need s s.nOk (.badParam 0x000) k

/-- RING_OK: N_OK, else BAD_PARAM(N); then K_OK, else BAD_PARAM(K) (R350, R390). -/
def needRing (s : State) (k : Unit → Result) : Result :=
  need s s.nOk (.badParam 0x000) fun _ => need s s.kOk (.badParam 0x001) k

/-- LWE_OK, else BAD_PARAM(LWE_N). -/
def needLwe (s : State) (k : Unit → Result) : Result := need s s.lweOk (.badParam 0x002) k

/-- GAD_OK, else BAD_PARAM(BK_L), the lowest-numbered CSR it names (R52; log 8). -/
def needGad (s : State) (k : Unit → Result) : Result := need s s.gadOk (.badParam 0x003) k

/-- KS_OK, else BAD_PARAM(KS_T), the lowest-numbered CSR it names (R52). -/
def needKs (s : State) (k : Unit → Result) : Result := need s s.ksOk (.badParam 0x005) k

/-- BK_FIT, else BAD_PARAM(LWE_N). -/
def needBkFit (s : State) (k : Unit → Result) : Result := need s s.bkFit (.badParam 0x002) k

/-! ### Registers (R31, R201) -/

/-- S[i] readable, else UNINIT(S, i). -/
def withS (s : State) (i : SIdx) (k : Word → Result) : Result :=
  match s.getS i with
  | some v => k v
  | none => raise s (.uninit .s i.val)

/-- P[i] valid, else UNINIT(P, i). -/
def withP (s : State) (i : PIdx) (k : PReg → Result) : Result :=
  match s.pRegs[i] with
  | some x => k x
  | none => raise s (.uninit .p i.val)

/-- F[i] valid, else UNINIT(F, i). -/
def withF (s : State) (i : FIdx) (k : FReg → Result) : Result :=
  match s.fRegs[i] with
  | some x => k x
  | none => raise s (.uninit .f i.val)

/-- L[i] valid, else UNINIT(L, i). -/
def withL (s : State) (i : LIdx) (k : LReg → Result) : Result :=
  match s.lRegs[i] with
  | some x => k x
  | none => raise s (.uninit .l i.val)

/-- R[i] valid, else UNINIT(R, i). -/
def withR (s : State) (i : RIdx) (k : RReg → Result) : Result :=
  match s.rRegs[i] with
  | some x => k x
  | none => raise s (.uninit .r i.val)

/-! ### Tags (R34, R37, R351) -/

/-- deg = CSR.N, else PARAM_MISMATCH(P, i). -/
def tagP (s : State) (i : PIdx) (x : PReg) (k : Unit → Result) : Result :=
  need s (x.deg == s.ringN) (.mismatch .p i.val) k

/-- deg = CSR.N, else PARAM_MISMATCH(F, i). -/
def tagF (s : State) (i : FIdx) (x : FReg) (k : Unit → Result) : Result :=
  need s (x.deg == s.ringN) (.mismatch .f i.val) k

/-- dim = d, else PARAM_MISMATCH(L, i). -/
def tagL (s : State) (i : LIdx) (x : LReg) (d : Nat) (k : Unit → Result) : Result :=
  need s (x.dim == d) (.mismatch .l i.val) k

/-- deg = CSR.N and k = CSR.K, else PARAM_MISMATCH(R, i). -/
def tagR (s : State) (i : RIdx) (x : RReg) (k : Unit → Result) : Result :=
  need s (x.deg == s.ringN && x.k == s.rankK) (.mismatch .r i.val) k

/-! ### Keys and the X bit (R144, R350, R393) -/

/-- R144: which key and dimension an instruction with an X bit uses. -/
inductive KeySel where
  /-- X = 0: KEYL, dimension LWE_N -/
  | lwe
  /-- X = 1: the extracted key, dimension k·N -/
  | ext
deriving DecidableEq, Repr

/-- R393: the extracted key, `s'[m·N + j] = s[m][j]`. -/
def extractedKey (x : KeyR) : List Bool :=
  vec (x.k * x.deg) fun q => (x.s.getD (q / x.deg) []).getD (q % x.deg) false

/-- R350: the predicate of the selection. -/
def needSel (s : State) (sel : KeySel) (k : Unit → Result) : Result :=
  match sel with
  | .lwe => needLwe s k
  | .ext => needRing s k

/-- R350: dimx. -/
def dimOf (s : State) : KeySel → Nat
  | .lwe => s.lweN
  | .ext => s.extN

/-- R350: the bits of the selected key and whether its tags match the CSRs, if it is valid. -/
def selKey (s : State) : KeySel → Option (List Bool × Bool)
  | .lwe => s.keyL.map fun x => (x.s, x.dim == s.lweN)
  | .ext => s.keyR.map fun x => (extractedKey x, x.deg == s.ringN && x.k == s.rankK)

/-- R350, R522: the file FAULT_INFO names for the selected key. -/
def selFile : KeySel → RegFile
  | .lwe => .keyL
  | .ext => .keyR

/-- R350: the selected key valid, else UNINIT(KEYL) or UNINIT(KEYR). Goes on with its bits and whether
its tags match. -/
def withKey (s : State) (sel : KeySel) (k : List Bool → Bool → Result) : Result :=
  match selKey s sel with
  | some (bits, fits) => k bits fits
  | none => raise s (.uninit (selFile sel) 0)

/-- R350: the selected key's tags match, else PARAM_MISMATCH(KEYL) or PARAM_MISMATCH(KEYR). -/
def tagKey (s : State) (sel : KeySel) (fits : Bool) (k : Unit → Result) : Result :=
  need s fits (.mismatch (selFile sel) 0) k

/-- R390 item 3: KEYR valid, then its tags. -/
def withKeyR (s : State) (k : KeyR → Result) : Result :=
  match s.keyR with
  | some x => need s (x.deg == s.ringN && x.k == s.rankK) (.mismatch .keyR 0) fun _ => k x
  | none => raise s (.uninit .keyR 0)

/-! ### Operand values (R530 item 9) -/

/-- A modulus M ≠ 0, else BAD_OPERAND(M) (R265). -/
def needModulus (s : State) (m : Word) (k : Unit → Result) : Result := need s (m != 0) (.badOperand m) k

/-- A value below a limit, read unsigned, else BAD_OPERAND(value) (R294, R408, R441). -/
def needBelow (s : State) (v : Word) (lim : Nat) (k : Unit → Result) : Result :=
  need s (v.toNat < lim) (.badOperand v) k

/-! ### BK slots (R38, R443, R480) -/

/-- R443: the slot's tags equal the CSRs. -/
def bkFits (s : State) (x : Rgsw) : Bool :=
  x.deg == s.ringN && x.k == s.rankK && x.l == s.gadL && x.bgbit == s.gadBits

/-- R443, R480 item 4: what is wrong with a slot, if anything: UNINIT, then PARAM_MISMATCH. -/
def slotFault (s : State) (slot : Nat) : Option Exc :=
  match s.getBk slot with
  | none => some (.uninit .bk slot)
  | some x => if bkFits s x then none else some (.mismatch .bk slot)

/-- R480 item 4: every slot in [0, n), in increasing order. -/
def needSlots (s : State) (n : Nat) (k : Unit → Result) : Result :=
  match (List.range n).findSome? (slotFault s) with
  | some x => raise s x
  | none => k ()

/-- R443 items 7 and 8: one slot. -/
def withSlot (s : State) (slot : Nat) (k : Rgsw → Result) : Result :=
  match s.getBk slot with
  | none => raise s (.uninit .bk slot)
  | some x => need s (bkFits s x) (.mismatch .bk slot) fun _ => k x

/-! ### DMEM transfers (R105, R106, R108) -/

/-- R108: EA = u32(S[a] + imm32). -/
def effAddr (base imm : Word) : Word := base + imm

/-- R105 and R106 for the whole transfer, before any word moves. -/
def needSpan (s : State) (ea : Word) (bytes : Nat) (k : Unit → Result) : Result :=
  need s (ea.toNat % 4 == 0) ⟨.dmemMisaligned, ea⟩ fun _ =>
    need s (ea.toNat + bytes ≤ s.params.dmemSize) ⟨.dmemOob, ea⟩ k

/-- R14: the words of a checked transfer, and the state after the draws of its never-written words
(R107). -/
def loaded (s : State) (ea : Word) (cnt : Nat) : List Word := (loadWords s.dmem s.drawCtr ea.toNat cnt).1

/-- R107: the state after a checked transfer was read. -/
def State.afterLoad (s : State) (ea : Word) (cnt : Nat) : State :=
  { s with drawCtr := (loadWords s.dmem s.drawCtr ea.toNat cnt).2 }

/-! ### Images (R110 to R115) -/

/-- R111: the LWE value of an image. The variance is two words, low word first (R104). -/
def LReg.ofWords (d : Nat) (w : List Word) : LReg where
  dim := d
  a := vec d fun i => coeff w i
  b := coeff w d
  var := coeff w (d + 2) ++ coeff w (d + 1)

/-- R111: the words of an LWE image. -/
def LReg.toWords (x : LReg) : List Word :=
  vec x.dim (coeff x.a) ++ [x.b, x.var.extractLsb' 0 32, x.var.extractLsb' 32 32]

/-- Component `q` of an RLWE value. -/
def Rlwe.get (x : Rlwe) (q : Nat) : List Word := x.comp.getD q []

/-- R113: the RLWE value of an image whose first word is word `at0` of the list. -/
def Rlwe.ofWords (n k : Nat) (w : List Word) (at0 : Nat) : Rlwe where
  comp := vec (k + 1) fun q => vec n fun i => coeff w (at0 + q * n + i)
  var := coeff w (at0 + (k + 1) * n + 1) ++ coeff w (at0 + (k + 1) * n)

/-- R113: the words of an RLWE image. -/
def Rlwe.toWords (x : Rlwe) (n k : Nat) : List Word :=
  vec ((k + 1) * n) (fun q => coeff (x.get (q / n)) (q % n))
    ++ [x.var.extractLsb' 0 32, x.var.extractLsb' 32 32]

end Sys2Proof.Machine
end

