-- ==== Sys2Proof/Machine/Lwe.lean ====
section
/-! DEFINITION. Machine/Lwe.lean: the LWE instructions (spec 44_lwe.md R350 to R372). -/

namespace Sys2Proof.Machine

/-! ### Encryption, decryption, trivial samples -/

/-- R360: the sample with the given uniform part, message and noise; var = f64mul(α, α) (R353). -/
def lweEncrypt (d : Nat) (key : List Bool) (a : List Word) (m : Word) (e : Int) (alpha : F64) : LReg where
  dim := d
  a := a
  b := dot d a key + m + u32 e
  var := f64mul alpha alpha

/-- R360: `d` uniform words, the draws numbered from `k`. -/
def uniformWords (d k : Nat) : List Word := vec d fun i => Config.freeU32 (k + i)

/-- L.ENC and L.ENC.X (R360). -/
def lweEnc (sel : KeySel) (d : LIdx) (a : SIdx) (s : State) : Result :=
  needSel s sel fun _ =>
  withS s a fun m =>
  withKey s sel fun bits fits =>
  tagKey s sel fits fun _ =>
  done ((s.setL d (lweEncrypt (dimOf s sel) bits (uniformWords (dimOf s sel) s.drawCtr) m
    (drawGauss s.alpha (s.drawCtr + dimOf s sel)) s.alpha)).bump (dimOf s sel + 1))

/-- L.ENC ld, sa (R360, X = 0). -/
def execLEnc (d : LIdx) (a : SIdx) (s : State) : Result := lweEnc .lwe d a s

/-- L.ENC.X ld, sa (R360, X = 1). -/
def execLEncX (d : LIdx) (a : SIdx) (s : State) : Result := lweEnc .ext d a s

/-- R361, R362: the phase u32(b − dot(a, s)). -/
def lwePhaseOf (x : LReg) (key : List Bool) : Word := x.b - dot x.dim x.a key

/-- L.DEC and L.DEC.X (R361): the key's valid bit is checked before the tags, M last. -/
def lweDec (sel : KeySel) (d : SIdx) (a : LIdx) (b : SIdx) (s : State) : Result :=
  needSel s sel fun _ =>
  withL s a fun x =>
  withS s b fun m =>
  withKey s sel fun bits fits =>
  tagL s a x (dimOf s sel) fun _ =>
  tagKey s sel fits fun _ =>
  needModulus s m fun _ =>
  done (s.setS d (approx (lwePhaseOf x bits) m.toNat))

/-- L.DEC sd, la, sb (R361, X = 0). -/
def execLDec (d : SIdx) (a : LIdx) (b : SIdx) (s : State) : Result := lweDec .lwe d a b s

/-- L.DEC.X sd, la, sb (R361, X = 1). -/
def execLDecX (d : SIdx) (a : LIdx) (b : SIdx) (s : State) : Result := lweDec .ext d a b s

/-- L.PHASE and L.PHASE.X (R362). -/
def lwePhase (sel : KeySel) (d : SIdx) (a : LIdx) (s : State) : Result :=
  needSel s sel fun _ =>
  withL s a fun x =>
  withKey s sel fun bits fits =>
  tagL s a x (dimOf s sel) fun _ =>
  tagKey s sel fits fun _ =>
  done (s.setS d (lwePhaseOf x bits))

/-- L.PHASE sd, la (R362, X = 0). -/
def execLPhase (d : SIdx) (a : LIdx) (s : State) : Result := lwePhase .lwe d a s

/-- L.PHASE.X sd, la (R362, X = 1). -/
def execLPhaseX (d : SIdx) (a : LIdx) (s : State) : Result := lwePhase .ext d a s

/-- R363: the noiseless trivial sample of μ. -/
def lweTrivial (d : Nat) (mu : Word) : LReg where
  dim := d
  a := vec d fun _ => 0
  b := mu
  var := f64Zero

/-- L.TRIV and L.TRIV.X (R363): no key is used. -/
def lweTriv (sel : KeySel) (d : LIdx) (a : SIdx) (s : State) : Result :=
  needSel s sel fun _ =>
  withS s a fun mu =>
  done (s.setL d (lweTrivial (dimOf s sel) mu))

/-- L.TRIV ld, sa (R363, X = 0). -/
def execLTriv (d : LIdx) (a : SIdx) (s : State) : Result := lweTriv .lwe d a s

/-- L.TRIV.X ld, sa (R363, X = 1). -/
def execLTrivX (d : LIdx) (a : SIdx) (s : State) : Result := lweTriv .ext d a s

/-! ### Linear operations -/

/-- R364 to R367: a word-wise combination of the accumulator and the source; the dimension is the
accumulator's. -/
def lweCombine (f : Word → Word → Word) (var : F64) (acc x : LReg) : LReg where
  dim := acc.dim
  a := vec acc.dim fun i => f (coeff acc.a i) (coeff x.a i)
  b := f acc.b x.b
  var := var

/-- R364: acc + x; the variances add. -/
def lweAdd (acc x : LReg) : LReg := lweCombine (fun u v => u + v) (f64add acc.var x.var) acc x

/-- R365: acc − x; the variances add too. -/
def lweSub (acc x : LReg) : LReg := lweCombine (fun u v => u - v) (f64add acc.var x.var) acc x

/-- R353: the variance after adding p·x: var + p²·var(x), with p read signed. -/
def varAddMul (p : Word) (acc x : F64) : F64 :=
  f64add acc (f64mul (f64mul (f64fromInt (s32 p)) (f64fromInt (s32 p))) x)

/-- R366: acc + p·x. -/
def lweAddMul (p : Word) (acc x : LReg) : LReg :=
  lweCombine (fun u v => u + p * v) (varAddMul p acc.var x.var) acc x

/-- R367: acc − p·x, with R366's variance. -/
def lweSubMul (p : Word) (acc x : LReg) : LReg :=
  lweCombine (fun u v => u - p * v) (varAddMul p acc.var x.var) acc x

/-- R368: −x; var is kept. -/
def lweNeg (x : LReg) : LReg where
  dim := x.dim
  a := vec x.dim fun i => -coeff x.a i
  b := -x.b
  var := x.var

/-- The shape of L.ADD and L.SUB (R364, R365): no CSR is checked; a dimension mismatch names L[d]
(R351). -/
def lweAcc (f : LReg → LReg → LReg) (d a : LIdx) (s : State) : Result :=
  withL s a fun x =>
  withL s d fun acc =>
  tagL s d acc x.dim fun _ =>
  done (s.setL d (f acc x))

/-- L.ADD ld, la (R364). -/
def execLAdd (d a : LIdx) (s : State) : Result := lweAcc lweAdd d a s

/-- L.SUB ld, la (R365). -/
def execLSub (d a : LIdx) (s : State) : Result := lweAcc lweSub d a s

/-- The shape of L.ADDMUL and L.SUBMUL (R366, R367). -/
def lweAccMul (f : Word → LReg → LReg → LReg) (d a : LIdx) (b : SIdx) (s : State) : Result :=
  withL s a fun x =>
  withS s b fun p =>
  withL s d fun acc =>
  tagL s d acc x.dim fun _ =>
  done (s.setL d (f p acc x))

/-- L.ADDMUL ld, la, sb (R366). -/
def execLAddmul (d a : LIdx) (b : SIdx) (s : State) : Result := lweAccMul lweAddMul d a b s

/-- L.SUBMUL ld, la, sb (R367). -/
def execLSubmul (d a : LIdx) (b : SIdx) (s : State) : Result := lweAccMul lweSubMul d a b s

/-- L.NEG ld, la (R368). -/
def execLNeg (d a : LIdx) (s : State) : Result :=
  withL s a fun x =>
  done (s.setL d (lweNeg x))

/-- L.COPY ld, la (R369). -/
def execLCopy (d a : LIdx) (s : State) : Result :=
  withL s a fun x =>
  done (s.setL d x)

/-! ### Loads, stores and the key -/

/-- L.LD and L.LD.X (R370; layout R111). -/
def lweLoad (sel : KeySel) (d : LIdx) (a : SIdx) (imm : Word) (s : State) : Result :=
  needSel s sel fun _ =>
  withS s a fun base =>
  needSpan s (effAddr base imm) (lStride (dimOf s sel)) fun _ =>
  done ((s.afterLoad (effAddr base imm) (dimOf s sel + 3)).setL d
    (LReg.ofWords (dimOf s sel) (loaded s (effAddr base imm) (dimOf s sel + 3))))

/-- L.LD ld, imm(sa) (R370, X = 0). -/
def execLLd (d : LIdx) (a : SIdx) (imm : Word) (s : State) : Result := lweLoad .lwe d a imm s

/-- L.LD.X ld, imm(sa) (R370, X = 1). -/
def execLLdX (d : LIdx) (a : SIdx) (imm : Word) (s : State) : Result := lweLoad .ext d a imm s

/-- L.ST ld, imm(sa) (R371): no CSR is checked; the register's own dim sets the size. -/
def execLSt (d : LIdx) (a : SIdx) (imm : Word) (s : State) : Result :=
  withS s a fun base =>
  withL s d fun x =>
  needSpan s (effAddr base imm) (lStride x.dim) fun _ =>
  done (s.store (effAddr base imm).toNat x.toWords)

/-- R115: a key word that is neither 0 nor 1, the one of lowest index. -/
def badKeyWord (w : List Word) : Option Word := w.find? fun x => x != 0 && x != 1

/-- R372, R411: the data check of a key image, after all others (R530 item 13). The words have been read,
so the draws of never-written ones are spent (log 12). -/
def needKeyWords (s : State) (w : List Word) (k : Unit → Result) : Result :=
  match badKeyWord w with
  | some v => raise s (.badOperand v)
  | none => k ()

/-- R115: the bits of checked key words. -/
def keyBits (n : Nat) (w : List Word) (at0 : Nat) : List Bool := vec n fun i => coeff w (at0 + i) == 1

/-- KEY.LDL imm(sa) (R372). -/
def execKeyLdl (a : SIdx) (imm : Word) (s : State) : Result :=
  needLwe s fun _ =>
  withS s a fun base =>
  needSpan s (effAddr base imm) (4 * s.lweN) fun _ =>
  needKeyWords (s.afterLoad (effAddr base imm) s.lweN) (loaded s (effAddr base imm) s.lweN) fun _ =>
  done ((s.afterLoad (effAddr base imm) s.lweN).setKeyL
    (keyBits s.lweN (loaded s (effAddr base imm) s.lweN) 0))

end Sys2Proof.Machine
end

