-- ==== Sys2Proof/Machine/KeySwitch.lean ====
section
/-! DEFINITION. Machine/KeySwitch.lean: key switching (spec 47_keyswitch.md R460 to R465). -/

namespace Sys2Proof.Machine

/-- R112: the address of entry (i, j, w) of the key-switching key at `base`. -/
def kskEntry (base n t bb i j w : Nat) : Nat := base + ((i * t + j) * 2 ^ bb + w) * lStride n

/-- R112: KSK_BYTES, exact. -/
def kskBytes (nSrc n t bb : Nat) : Nat := nSrc * t * 2 ^ bb * lStride n

/-- R465: the body of the double loop for one (i, j), on the output sample and the draw counter. Entries
with w = 0 are never read; a never-written word of an entry is a draw (R107). -/
def ksStep (m : Memory) (base n t bb : Nat) (cin : LReg) (i : Nat) (acc : LReg × Nat) (j : Nat) :
    LReg × Nat :=
  let w := ksDigit t bb j (coeff cin.a i)
  if w = 0 then acc
  else
    let r := loadWords m acc.2 (kskEntry base n t bb i j w) (n + 3)
    (lweSub acc.1 (LReg.ofWords n r.1), r.2)

/-- R465: key_switch(KSK, c_in): c_out and the draw counter afterwards. -/
def keySwitch (m : Memory) (base nSrc n t bb : Nat) (cin : LReg) (c : Nat) : LReg × Nat :=
  (List.range nSrc).foldl
    (fun acc i => (List.range t).foldl (ksStep m base n t bb cin i) acc)
    (lweTrivial n cin.b, c)

/-- R465: the key switch of a sample under the current CSRs and DMEM. -/
def State.keySwitch (s : State) (cin : LReg) (c : Nat) : LReg × Nat :=
  Machine.keySwitch s.dmem s.csr.kskBase.toNat s.extN s.lweN s.ksT s.ksBits cin c

/-- R465 items 6 and 7: the whole KSK region, before any read. -/
def needKsk (s : State) (k : Unit → Result) : Result :=
  needSpan s s.csr.kskBase (kskBytes s.extN s.lweN s.ksT s.ksBits) k

/-- KS ld, la (R465). -/
def execKs (d a : LIdx) (s : State) : Result :=
  needRing s fun _ =>
  needLwe s fun _ =>
  needKs s fun _ =>
  withL s a fun cin =>
  tagL s a cin s.extN fun _ =>
  needKsk s fun _ =>
  done { s.setL d (s.keySwitch cin s.drawCtr).1 with drawCtr := (s.keySwitch cin s.drawCtr).2 }

end Sys2Proof.Machine
end

