-- ==== Sys2Proof/Machine/Poly.lean ====
section
/-! DEFINITION. Machine/Poly.lean: the polynomial ring instructions (spec 42_polynomial.md R280 to R298). -/

namespace Sys2Proof.Machine

/-- P.CLR pd (R290). -/
def execPClr (d : PIdx) (s : State) : Result :=
  needN s fun _ =>
  done (s.setP d (vec s.ringN fun _ => 0))

/-- The shape of P.ADD and P.SUB (R280, R291, R292). -/
def polyBin (f : Word → Word → Word) (d a b : PIdx) (s : State) : Result :=
  needN s fun _ =>
  withP s a fun x =>
  withP s b fun y =>
  tagP s a x fun _ =>
  tagP s b y fun _ =>
  done (s.setP d (vec s.ringN fun i => f (coeff x.c i) (coeff y.c i)))

/-- P.ADD pd, pa, pb (R291). -/
def execPAdd (d a b : PIdx) (s : State) : Result := polyBin (fun x y => x + y) d a b s

/-- P.SUB pd, pa, pb (R292). -/
def execPSub (d a b : PIdx) (s : State) : Result := polyBin (fun x y => x - y) d a b s

/-- P.ADDMULZ pd, pa, sb (R293): P[d] is the accumulator and is read. -/
def execPAddmulz (d a : PIdx) (b : SIdx) (s : State) : Result :=
  needN s fun _ =>
  withP s a fun r =>
  withS s b fun q =>
  withP s d fun p =>
  tagP s a r fun _ =>
  tagP s d p fun _ =>
  done (s.setP d (vec s.ringN fun i => coeff p.c i + q * coeff r.c i))

/-- The checks of P.MULXAI and P.MULXAIM1 (R294): exponents of 2N or more fault, they are never
reduced. -/
def polyMono (f : Nat → List Word → List Word) (d a : PIdx) (b : SIdx) (s : State) : Result :=
  needN s fun _ =>
  withP s a fun x =>
  withS s b fun e =>
  tagP s a x fun _ =>
  needBelow s e (2 * s.ringN) fun _ =>
  done (s.setP d (f e.toNat x.c))

/-- R295: (X^e − 1) · src. -/
def mulXaiM1 (n e : Nat) (src : List Word) : List Word :=
  let r := rot n e src
  vec n fun i => coeff r i - coeff src i

/-- P.MULXAI pd, pa, sb (R294). -/
def execPMulxai (d a : PIdx) (b : SIdx) (s : State) : Result := polyMono (rot s.ringN) d a b s

/-- P.MULXAIM1 pd, pa, sb (R295). -/
def execPMulxaim1 (d a : PIdx) (b : SIdx) (s : State) : Result := polyMono (mulXaiM1 s.ringN) d a b s

/-- R296, R406: the words of an IntPoly × TorusPoly product through the FFT engine: the exact product
plus the error draws numbered from `k`, class M(sbits x, 1). -/
def fftProduct (n : Nat) (x y : List Word) (k : Nat) : List Word :=
  let p := ints n x
  let q := ints n y
  let beta := errBound n (.m (sbits p) 1)
  vec n fun i => u32 (nprodAt n p q i + drawErr beta (k + i))

/-- P.MULFFT pd, pa, pb (R296). -/
def execPMulfft (d a b : PIdx) (s : State) : Result :=
  needN s fun _ =>
  withP s a fun x =>
  withP s b fun y =>
  tagP s a x fun _ =>
  tagP s b y fun _ =>
  done ((s.setP d (fftProduct s.ringN x.c y.c s.drawCtr)).bump s.ringN)

/-- P.LD pd, imm(sa) (R297; layout R110). -/
def execPLd (d : PIdx) (a : SIdx) (imm : Word) (s : State) : Result :=
  needN s fun _ =>
  withS s a fun base =>
  needSpan s (effAddr base imm) (4 * s.ringN) fun _ =>
  done ((s.afterLoad (effAddr base imm) s.ringN).setP d (loaded s (effAddr base imm) s.ringN))

/-- P.ST pd, imm(sa) (R298; layout R110). -/
def execPSt (d : PIdx) (a : SIdx) (imm : Word) (s : State) : Result :=
  needN s fun _ =>
  withS s a fun base =>
  withP s d fun x =>
  tagP s d x fun _ =>
  needSpan s (effAddr base imm) (4 * s.ringN) fun _ =>
  done (s.store (effAddr base imm).toNat (vec s.ringN (coeff x.c)))

end Sys2Proof.Machine
end

