-- ==== Sys2Proof/Machine/Rlwe.lean ====
section
/-! DEFINITION. Machine/Rlwe.lean: the RLWE instructions (spec 45_rlwe.md R390 to R411). -/

namespace Sys2Proof.Machine

/-! ### The key product, encryption and phase -/

/-- R391: coefficient `i` of ksum(comp) = Σ_{m<k} comp[m]·s_m, exact, then reduced modulo 2^32. (The inner
reductions of kprod are absorbed, R12.) -/
def ksumAt (n k : Nat) (key : List (List Bool)) (x : Rlwe) (i : Nat) : Word :=
  u32 (∑ m ∈ Finset.range k, nprodAt n (ints n (x.get m)) (keyInts n (key.getD m [])) i)

/-- R400, R401: the sample with the given uniform components, noise and message polynomial. -/
def rlweEncrypt (n k : Nat) (key : List (List Bool)) (u : List (List Word)) (noise : List Int)
    (mu : List Word) (alpha : F64) : Rlwe :=
  let masks : Rlwe := ⟨u, f64Zero⟩
  { comp := vec (k + 1) fun q =>
      if q < k then vec n (coeff (masks.get q))
      else vec n fun i => ksumAt n k key masks i + u32 (icoeff noise i) + coeff mu i
    var := f64mul alpha alpha }

/-- R400: k uniform polynomials, the draws numbered from `c`. -/
def uniformPolys (n k c : Nat) : List (List Word) :=
  vec k fun m => vec n fun i => Config.freeU32 (c + m * n + i)

/-- R392: noisepoly(α), one draw per coefficient, numbered from `c`. -/
def noisePoly (n : Nat) (alpha : F64) (c : Nat) : List Int := vec n fun i => drawGauss alpha (c + i)

/-- How many draws one encryption makes. -/
def encDraws (n k : Nat) : Nat := k * n + n

/-- R400, R401: a fresh encryption of `mu`, the draws numbered from `c`. -/
def rlweFresh (n k : Nat) (key : List (List Bool)) (mu : List Word) (alpha : F64) (c : Nat) : Rlwe :=
  rlweEncrypt n k key (uniformPolys n k c) (noisePoly n alpha (c + k * n)) mu alpha

/-- R.ENC0 rd (R400). -/
def execREnc0 (d : RIdx) (s : State) : Result :=
  needRing s fun _ =>
  withKeyR s fun key =>
  done ((s.setR d (rlweFresh s.ringN s.rankK key.s [] s.alpha s.drawCtr)).bump (encDraws s.ringN s.rankK))

/-- R.ENC rd, pa (R401): the P operand's tag is checked before the key. -/
def execREnc (d : RIdx) (a : PIdx) (s : State) : Result :=
  needRing s fun _ =>
  withP s a fun mu =>
  tagP s a mu fun _ =>
  withKeyR s fun key =>
  done ((s.setR d (rlweFresh s.ringN s.rankK key.s mu.c s.alpha s.drawCtr)).bump
    (encDraws s.ringN s.rankK))

/-- R402: comp[k] − ksum(comp). -/
def rlwePhase (n k : Nat) (key : List (List Bool)) (x : Rlwe) : List Word :=
  vec n fun i => coeff (x.get k) i - ksumAt n k key x i

/-- R.PHASE pd, ra (R402). -/
def execRPhase (d : PIdx) (a : RIdx) (s : State) : Result :=
  needRing s fun _ =>
  withR s a fun x =>
  tagR s a x fun _ =>
  withKeyR s fun key =>
  done (s.setP d (rlwePhase s.ringN s.rankK key.s x.val))

/-- R403: the noiseless trivial sample of a polynomial. -/
def rlweTrivial (n k : Nat) (mu : List Word) : Rlwe where
  comp := vec (k + 1) fun q => vec n fun i => if q < k then 0 else coeff mu i
  var := f64Zero

/-- R.TRIV rd, pa (R403): no key is needed. -/
def execRTriv (d : RIdx) (a : PIdx) (s : State) : Result :=
  needRing s fun _ =>
  withP s a fun mu =>
  tagP s a mu fun _ =>
  done (s.setR d (rlweTrivial s.ringN s.rankK mu.c))

/-! ### Linear operations -/

/-- R404, R405: a word-wise combination of two samples. -/
def rlweCombine (f : Word → Word → Word) (n k : Nat) (var : F64) (x y : Rlwe) : Rlwe where
  comp := vec (k + 1) fun q => vec n fun i => f (coeff (x.get q) i) (coeff (y.get q) i)
  var := var

/-- The shape of R.ADD and R.SUB (R404, R405); the variances add in both. -/
def rlweAcc (f : Word → Word → Word) (d a : RIdx) (s : State) : Result :=
  needRing s fun _ =>
  withR s a fun x =>
  withR s d fun acc =>
  tagR s a x fun _ =>
  tagR s d acc fun _ =>
  done (s.setR d (rlweCombine f s.ringN s.rankK (f64add acc.val.var x.val.var) acc.val x.val))

/-- R.ADD rd, ra (R404). -/
def execRAdd (d a : RIdx) (s : State) : Result := rlweAcc (fun u v => u + v) d a s

/-- R.SUB rd, ra (R405). -/
def execRSub (d a : RIdx) (s : State) : Result := rlweAcc (fun u v => u - v) d a s

/-- R406: Σ p[i]², exact. -/
def normSq (x : List Int) : Int := (x.map fun z => z * z).sum

/-- R406: acc + p·src through the FFT engine, the error draws numbered from `c`; the variance grows by
the squared norm of p times src's. -/
def rlweAddMul (n k : Nat) (p : List Word) (acc src : Rlwe) (c : Nat) : Rlwe where
  comp := vec (k + 1) fun q =>
    let prod := fftProduct n p (src.get q) (c + q * n)
    vec n fun i => coeff (acc.get q) i + coeff prod i
  var := f64add acc.var (f64mul (f64fromInt (normSq (ints n p))) src.var)

/-- R.ADDMULR rd, pa, rb (R406): one error draw per component and coefficient. -/
def execRAddmulr (d : RIdx) (a : PIdx) (b : RIdx) (s : State) : Result :=
  needRing s fun _ =>
  withP s a fun p =>
  withR s b fun src =>
  withR s d fun acc =>
  tagP s a p fun _ =>
  tagR s b src fun _ =>
  tagR s d acc fun _ =>
  done ((s.setR d (rlweAddMul s.ringN s.rankK p.c acc.val src.val s.drawCtr)).bump
    ((s.rankK + 1) * s.ringN))

/-- R407: (X^e − 1)·x component-wise, with the given variance. -/
def rlweMulXaiM1 (n k e : Nat) (x : Rlwe) (var : F64) : Rlwe where
  comp := vec (k + 1) fun q => mulXaiM1 n e (x.get q)
  var := var

/-- R.MULXAIM1 rd, ra, sb (R407): the variance is Draw.F64() (R394). -/
def execRMulxaim1 (d a : RIdx) (b : SIdx) (s : State) : Result :=
  needRing s fun _ =>
  withR s a fun x =>
  withS s b fun e =>
  tagR s a x fun _ =>
  needBelow s e (2 * s.ringN) fun _ =>
  done ((s.setR d (rlweMulXaiM1 s.ringN s.rankK e.toNat x.val (Config.freeF64 s.drawCtr))).bump 1)

/-- R408: the LWE sample of coefficient `i`, of dimension k·N; var is copied. -/
def rlweExtract (n k i : Nat) (x : Rlwe) : LReg where
  dim := k * n
  a := vec (k * n) fun q =>
    if q % n ≤ i then coeff (x.get (q / n)) (i - q % n) else -coeff (x.get (q / n)) (i + n - q % n)
  b := coeff (x.get k) i
  var := x.var

/-- R.EXTRACT ld, ra, sb (R408). -/
def execRExtract (d : LIdx) (a : RIdx) (b : SIdx) (s : State) : Result :=
  needRing s fun _ =>
  withR s a fun x =>
  withS s b fun i =>
  tagR s a x fun _ =>
  needBelow s i s.ringN fun _ =>
  done (s.setL d (rlweExtract s.ringN s.rankK i.toNat x.val))

/-! ### Loads, stores and the key -/

/-- R.LD rd, imm(sa) (R409; layout R113). -/
def execRLd (d : RIdx) (a : SIdx) (imm : Word) (s : State) : Result :=
  needRing s fun _ =>
  withS s a fun base =>
  needSpan s (effAddr base imm) (rStride s.ringN s.rankK) fun _ =>
  done ((s.afterLoad (effAddr base imm) ((s.rankK + 1) * s.ringN + 2)).setR d
    (Rlwe.ofWords s.ringN s.rankK (loaded s (effAddr base imm) ((s.rankK + 1) * s.ringN + 2)) 0))

/-- R.ST rd, imm(sa) (R410; layout R113). -/
def execRSt (d : RIdx) (a : SIdx) (imm : Word) (s : State) : Result :=
  needRing s fun _ =>
  withS s a fun base =>
  withR s d fun x =>
  tagR s d x fun _ =>
  needSpan s (effAddr base imm) (rStride s.ringN s.rankK) fun _ =>
  done (s.store (effAddr base imm).toNat (x.val.toWords s.ringN s.rankK))

/-- KEY.LDR imm(sa) (R411; layout R115). -/
def execKeyLdr (a : SIdx) (imm : Word) (s : State) : Result :=
  needRing s fun _ =>
  withS s a fun base =>
  needSpan s (effAddr base imm) (4 * s.extN) fun _ =>
  needKeyWords (s.afterLoad (effAddr base imm) s.extN) (loaded s (effAddr base imm) s.extN) fun _ =>
  done ((s.afterLoad (effAddr base imm) s.extN).setKeyR
    (vec s.rankK fun m => keyBits s.ringN (loaded s (effAddr base imm) s.extN) (m * s.ringN)))

end Sys2Proof.Machine
end

