-- ==== Sys2Proof/Machine/Rgsw.lean ====
section
/-! DEFINITION. Machine/Rgsw.lean: gadget decomposition, RGSW encryption and the external product (spec
46_rgsw.md R430 to R443). -/

namespace Sys2Proof.Machine

/-- R440: P[d + j] <- polynomial j, for each polynomial of the list. -/
def State.setPs (s : State) (d : Nat) : List (List Word) → State
  | [] => s
  | c :: cs => if h : d < 16 then (s.setP ⟨d, h⟩ c).setPs (d + 1) cs else s

/-- R433, R440: the digit polynomials of a coefficient vector, as words. -/
def decWords (n l bgbit : Nat) (c : List Word) : List (List Word) :=
  vec l fun j => vec n fun i => u32 (decDigit l bgbit j (coeff c i))

/-- G.DECOMP pd, pa (R440): the source is read whole before any write. -/
def execGDecomp (d a : PIdx) (s : State) : Result :=
  needN s fun _ =>
  needGad s fun _ =>
  withP s a fun x =>
  tagP s a x fun _ =>
  need s (d.val + s.gadL ≤ 16) (.badOperand s.csr.bkL) fun _ =>
  done (s.setPs d.val (decWords s.ringN s.gadL s.gadBits x.c))

/-- R441: a row with m·H[j] added to coefficient 0 of component `i`, modulo 2^32. -/
def addGadget (n k i : Nat) (v : Word) (x : Rlwe) : Rlwe where
  comp := vec (k + 1) fun q => vec n fun t =>
    if q = i ∧ t = 0 then coeff (x.get q) t + v else coeff (x.get q) t
  var := x.var

/-- R441: the rows of an encryption of `m`, row p = i·l + j; each row is a fresh encryption of zero with
its own draws, numbered from `c`. -/
def rgswRows (n k l bgbit : Nat) (key : List (List Bool)) (m : Word) (alpha : F64) (c : Nat) : List Rlwe :=
  vec ((k + 1) * l) fun p =>
    addGadget n k (p / l) (m * BitVec.ofNat 32 (gadgetH bgbit (p % l)))
      (rlweFresh n k key [] alpha (c + p * encDraws n k))

/-- G.ENC sa, sb (R441). -/
def execGEnc (a b : SIdx) (s : State) : Result :=
  needRing s fun _ =>
  needGad s fun _ =>
  withS s a fun slot =>
  withS s b fun m =>
  withKeyR s fun key =>
  needBelow s slot s.params.bkSlots fun _ =>
  done ((s.setBk slot.toNat
    (rgswRows s.ringN s.rankK s.gadL s.gadBits key.s m s.alpha s.drawCtr)).bump
      (s.kpl * encDraws s.ringN s.rankK))

/-- R114: the number of words of one row's image. -/
def rowWords (n k : Nat) : Nat := (k + 1) * n + 2

/-- G.LD sd, imm(sa) (R442; layout R114): the contents are not checked. -/
def execGLd (d a : SIdx) (imm : Word) (s : State) : Result :=
  needRing s fun _ =>
  needGad s fun _ =>
  withS s a fun base =>
  withS s d fun slot =>
  needBelow s slot s.params.bkSlots fun _ =>
  needSpan s (effAddr base imm) (s.kpl * rStride s.ringN s.rankK) fun _ =>
  done ((s.afterLoad (effAddr base imm) (s.kpl * rowWords s.ringN s.rankK)).setBk slot.toNat
    (vec s.kpl fun p => Rlwe.ofWords s.ringN s.rankK
      (loaded s (effAddr base imm) (s.kpl * rowWords s.ringN s.rankK)) (p * rowWords s.ringN s.rankK)))

/-- R443: coefficient `t` of Σ_{p<kpl} D[p]·(component r of row p), over the integers. -/
def extSumAt (n : Nat) (digits : List (List Int)) (rows : List (List Int)) (kpl t : Nat) : Int :=
  ∑ p ∈ Finset.range kpl, nprodAt n (digits.getD p []) (rows.getD p []) t

/-- How many error draws one external product makes. -/
def extDraws (n k : Nat) : Nat := (k + 1) * n

/-- R443: extprod(γ, c), the error draws numbered from `c0`, with the given variance. -/
def extprod (n k l bgbit : Nat) (g : Rgsw) (c : Rlwe) (c0 : Nat) (var : F64) : Rlwe where
  comp :=
    let digits := vec ((k + 1) * l) fun p => decPoly n l bgbit (p % l) (c.get (p / l))
    let beta := errBound n (.m bgbit ((k + 1) * l))
    vec (k + 1) fun r =>
      let rows := vec ((k + 1) * l) fun p => ints n ((g.rows.getD p ⟨[], f64Zero⟩).get r)
      vec n fun t => u32 (extSumAt n digits rows ((k + 1) * l) t + drawErr beta (c0 + r * n + t))
  var := var

/-- G.EXTPROD rd, ra, sb (R443): the result replaces R[d]; its variance is Draw.F64() (R394). -/
def execGExtprod (d a : RIdx) (b : SIdx) (s : State) : Result :=
  needRing s fun _ =>
  needGad s fun _ =>
  withR s a fun c =>
  withS s b fun slot =>
  tagR s a c fun _ =>
  needBelow s slot s.params.bkSlots fun _ =>
  withSlot s slot.toNat fun g =>
  done ((s.setR d (extprod s.ringN s.rankK s.gadL s.gadBits g c.val s.drawCtr
    (Config.freeF64 s.drawCtr))).bump (extDraws s.ringN s.rankK))

end Sys2Proof.Machine
end

