-- ==== Sys2Proof/Machine/Bootstrap.lean ====
section
/-! DEFINITION. Machine/Bootstrap.lean: blind rotation and programmable bootstrapping (spec
48_bootstrap.md R480 to R492). -/

namespace Sys2Proof.Machine

/-- R480: the checks of BR.ROT and BOOT.NKS (`ks` false) and of BOOT (`ks` true), which also needs KS_OK.
The predicates stand in R52's order (log 9). -/
def needBoot (s : State) (ks : Bool) (a : LIdx) (b : SIdx) (k : LReg → Word → Result) : Result :=
  needRing s fun _ =>
  needLwe s fun _ =>
  needGad s fun _ =>
  need s (!ks || s.ksOk) (.badParam 0x005) fun _ =>
  needBkFit s fun _ =>
  withL s a fun c =>
  withS s b fun mu =>
  tagL s a c s.lweN fun _ =>
  needSlots s s.lweN fun _ =>
  k c mu

/-- R483: e0 = (2N − b̄) mod 2N. -/
def preExponent (n : Nat) (b : Word) : Nat := (2 * n - msfrom b (2 * n)) % (2 * n)

/-- R482, R483: steps 2 and 3, the trivial sample of X^e0·v with v = [μ, …, μ]. -/
def preRotate (n k : Nat) (b mu : Word) : Rlwe :=
  rlweTrivial n k (rot n (preExponent n b) (vec n fun _ => mu))

/-- R484: one iteration of the blind rotation, for key bit `i`, on ACC and the draw counter. Both operands
are the ACC before the iteration; a non-skipped one leaves the variance Draw.F64(). -/
def blindStep (n k l bgbit : Nat) (bk : Assoc Rgsw) (c : LReg) (acc : Rlwe × Nat) (i : Nat) : Rlwe × Nat :=
  let e := msfrom (coeff c.a i) (2 * n)
  if e = 0 then acc
  else
    let g := (assocGet bk i).getD ⟨n, k, l, bgbit, []⟩
    let var := Config.freeF64 acc.2
    let prod := extprod n k l bgbit g (rlweMulXaiM1 n k e acc.1 var) acc.2 var
    (rlweCombine (fun u v => u + v) n k var acc.1 prod, acc.2 + extDraws n k)

/-- R481 to R484: steps 1 to 4. -/
def blindRotate (n k l bgbit : Nat) (bk : Assoc Rgsw) (c : LReg) (mu : Word) (c0 : Nat) : Rlwe × Nat :=
  (List.range c.dim).foldl (blindStep n k l bgbit bk c) (preRotate n k c.b mu, c0)

/-- R481 to R484 under the current CSRs and bootstrapping key: ACC and the draw counter afterwards. -/
def State.blindRotate (s : State) (c : LReg) (mu : Word) : Rlwe × Nat :=
  Machine.blindRotate s.ringN s.rankK s.gadL s.gadBits s.bk c mu s.drawCtr

/-- R485: step 5, the extraction at index 0. -/
def State.bootExtract (s : State) (c : LReg) (mu : Word) : LReg :=
  rlweExtract s.ringN s.rankK 0 (s.blindRotate c mu).1

/-- BR.ROT rd, la, sb (R490). -/
def execBrRot (d : RIdx) (a : LIdx) (b : SIdx) (s : State) : Result :=
  needBoot s false a b fun c mu =>
  done { s.setR d (s.blindRotate c mu).1 with drawCtr := (s.blindRotate c mu).2 }

/-- BOOT.NKS ld, la, sb (R491): no R register is written. -/
def execBootNks (d a : LIdx) (b : SIdx) (s : State) : Result :=
  needBoot s false a b fun c mu =>
  done { s.setL d (s.bootExtract c mu) with drawCtr := (s.blindRotate c mu).2 }

/-- R486: step 6, the key switch of the extracted sample. -/
def State.bootSwitch (s : State) (c : LReg) (mu : Word) : LReg × Nat :=
  s.keySwitch (s.bootExtract c mu) (s.blindRotate c mu).2

/-- BOOT ld, la, sb (R492): the KSK region is checked before any computation. -/
def execBoot (d a : LIdx) (b : SIdx) (s : State) : Result :=
  needBoot s true a b fun c mu =>
  needKsk s fun _ =>
  done { s.setL d (s.bootSwitch c mu).1 with drawCtr := (s.bootSwitch c mu).2 }

end Sys2Proof.Machine
end

