-- ==== Sys2Proof/Machine/Flags.lean ====
section
/-! DEFINITION. Machine/Flags.lean: the CORE has no flags and no condition codes (spec 10_state.md R42);
comparisons exist only inside the four branches. These are their conditions (R224 to R227). -/

namespace Sys2Proof.Machine

/-- R224: `S[a] = S[b]`. -/
def condEq (x y : Word) : Bool := x == y

/-- R225: `S[a] ≠ S[b]`. -/
def condNe (x y : Word) : Bool := x != y

/-- R226: `s32(S[a]) < s32(S[b])`. -/
def condLt (x y : Word) : Bool := s32 x < s32 y

/-- R227: `S[a] < S[b]`, unsigned. -/
def condLtu (x y : Word) : Bool := x.toNat < y.toNat

end Sys2Proof.Machine
end

