-- ==== Sys2Proof/Machine/Control.lean ====
section
/-! DEFINITION. Machine/Control.lean: branches and jumps (spec 40_sequencer.md R224 to R231). Targets are
byte addresses; a misaligned or out-of-range target faults at the next fetch, never here (R231). -/

namespace Sys2Proof.Machine

/-- R143: target = u32(pc + imm32). -/
def State.target (s : State) (imm : Word) : Word := s.pc + imm

/-- The shape of the four branches (R224 to R227): S[a] readable, then S[b]. -/
def branch (cond : Word → Word → Bool) (a b : SIdx) (imm : Word) (s : State) : Result :=
  withS s a fun x =>
  withS s b fun y =>
  if cond x y then .next (s.jump (s.target imm)) else done s

/-- BEQ sa, sb, imm (R224). -/
def execBeq (a b : SIdx) (imm : Word) (s : State) : Result := branch condEq a b imm s

/-- BNE sa, sb, imm (R225). -/
def execBne (a b : SIdx) (imm : Word) (s : State) : Result := branch condNe a b imm s

/-- BLT sa, sb, imm (R226): the torus sign test. -/
def execBlt (a b : SIdx) (imm : Word) (s : State) : Result := branch condLt a b imm s

/-- BLTU sa, sb, imm (R227). -/
def execBltu (a b : SIdx) (imm : Word) (s : State) : Result := branch condLtu a b imm s

/-- JMP imm (R228). -/
def execJmp (imm : Word) (s : State) : Result := .next (s.jump (s.target imm))

/-- JAL sd, imm (R229): the target is computed before the link is written. -/
def execJal (d : SIdx) (imm : Word) (s : State) : Result :=
  .next ((s.setS d (s.pc + 8)).jump (s.target imm))

/-- JR sa (R230). -/
def execJr (a : SIdx) (s : State) : Result :=
  withS s a fun x =>
  .next (s.jump x)

end Sys2Proof.Machine
end

