-- ==== Sys2Proof/Machine/Fft.lean ====
section
/-! DEFINITION. Machine/Fft.lean: the FFT engine (spec 43_fft.md R320 to R335). An F register holds the
exact integer polynomial; all rounding error is drawn at the inverse transform (R320, R322). -/

namespace Sys2Proof.Machine

/-- F.CLR fd (R330): class Z. -/
def execFClr (d : FIdx) (s : State) : Result :=
  needN s fun _ =>
  done (s.setF d (vec s.ringN fun _ => 0) .z)

/-- The shape of F.FWDI and F.FWDT (R331, R332). -/
def forward (cls : List Int → ErrClass) (d : FIdx) (a : PIdx) (s : State) : Result :=
  needN s fun _ =>
  withP s a fun x =>
  tagP s a x fun _ =>
  done (s.setF d (ints s.ringN x.c) (cls (ints s.ringN x.c)))

/-- F.FWDI fd, pa (R331): class I(sbits). -/
def execFFwdi (d : FIdx) (a : PIdx) (s : State) : Result := forward (fun x => .i (sbits x)) d a s

/-- F.FWDT fd, pa (R332): class T. -/
def execFFwdt (d : FIdx) (a : PIdx) (s : State) : Result := forward (fun _ => .t) d a s

/-- R322: the words of an inverse transform, with the error draws numbered from `k`. -/
def inverse (n : Nat) (v : List Int) (cls : ErrClass) (k : Nat) : List Word :=
  vec n fun i => u32 (icoeff v i + drawErr (errBound n cls) (k + i))

/-- F.INV pd, fa (R333). -/
def execFInv (d : PIdx) (a : FIdx) (s : State) : Result :=
  needN s fun _ =>
  withF s a fun x =>
  tagF s a x fun _ =>
  done ((s.setP d (inverse s.ringN x.v x.cls s.drawCtr)).bump s.ringN)

/-- R334: the class of an accumulator after one more product. -/
def mulAddClass (acc x y : ErrClass) : ErrClass :=
  match acc, x, y with
  | .z, .i b, .t => .m b 1
  | .z, .t, .i b => .m b 1
  | .m b0 c0, .i b, .t => .m (max b0 b) (c0 + 1)
  | .m b0 c0, .t, .i b => .m (max b0 b) (c0 + 1)
  | _, _, _ => .g

/-- F.MULADD fd, fa, fb (R334): the exact negacyclic product is added to V. -/
def execFMuladd (d a b : FIdx) (s : State) : Result :=
  needN s fun _ =>
  withF s a fun x =>
  withF s b fun y =>
  withF s d fun acc =>
  tagF s a x fun _ =>
  tagF s b y fun _ =>
  tagF s d acc fun _ =>
  done (s.setF d (vec s.ringN fun i => icoeff acc.v i + nprodAt s.ringN x.v y.v i)
    (mulAddClass acc.cls x.cls y.cls))

/-- R335: X^e in the ring: 1 at index e, or −1 at index e − n. -/
def monomial (n e : Nat) : List Int :=
  vec n fun i => if e = i then 1 else if e = i + n then -1 else 0

/-- F.MONO fd, sa (R335): class I(2). -/
def execFMono (d : FIdx) (a : SIdx) (s : State) : Result :=
  needN s fun _ =>
  withS s a fun e =>
  needBelow s e (2 * s.ringN) fun _ =>
  done (s.setF d (monomial s.ringN e.toNat) (.i 2))

end Sys2Proof.Machine
end

