-- ==== Sys2Proof/Machine/Scalar.lean ====
section
/-! DEFINITION. Machine/Scalar.lean: the scalar instructions S.LI to S.SW (spec 40_sequencer.md R214 to
R223). All arithmetic is modulo 2^32, with no flag and no trap (R204). -/

namespace Sys2Proof.Machine

/-- The shape of S.ADD to S.SRL: S[a] readable, then S[b]; S[d] <- f(S[a], S[b]) (R216 to R221). -/
def scalarBin (f : Word → Word → Word) (d a b : SIdx) (s : State) : Result :=
  withS s a fun x =>
  withS s b fun y =>
  done (s.setS d (f x y))

/-- R220: any amount of 32 or more gives 0; the amount is never taken modulo 32. -/
def shiftLeft32 (x sh : Word) : Word := if 32 ≤ sh.toNat then 0 else BitVec.ofNat 32 (x.toNat * 2 ^ sh.toNat)

/-- R221: a logical shift; any amount of 32 or more gives 0. -/
def shiftRight32 (x sh : Word) : Word := if 32 ≤ sh.toNat then 0 else BitVec.ofNat 32 (x.toNat / 2 ^ sh.toNat)

/-- S.LI sd, imm (R214). -/
def execSLi (d : SIdx) (imm : Word) (s : State) : Result := done (s.setS d imm)

/-- S.ADDI sd, sa, imm (R215). -/
def execSAddi (d a : SIdx) (imm : Word) (s : State) : Result :=
  withS s a fun x =>
  done (s.setS d (x + imm))

/-- S.ADD sd, sa, sb (R216). -/
def execSAdd (d a b : SIdx) (s : State) : Result := scalarBin (fun x y => x + y) d a b s

/-- S.SUB sd, sa, sb (R217). -/
def execSSub (d a b : SIdx) (s : State) : Result := scalarBin (fun x y => x - y) d a b s

/-- S.MUL sd, sa, sb (R218): the low 32 bits of the product. -/
def execSMul (d a b : SIdx) (s : State) : Result := scalarBin (fun x y => x * y) d a b s

/-- S.AND sd, sa, sb (R219). -/
def execSAnd (d a b : SIdx) (s : State) : Result := scalarBin (fun x y => x &&& y) d a b s

/-- S.SLL sd, sa, sb (R220). -/
def execSSll (d a b : SIdx) (s : State) : Result := scalarBin shiftLeft32 d a b s

/-- S.SRL sd, sa, sb (R221). -/
def execSSrl (d a b : SIdx) (s : State) : Result := scalarBin shiftRight32 d a b s

/-- S.LW sd, imm(sa) (R222): checks and reads even when d = 0. -/
def execSLw (d a : SIdx) (imm : Word) (s : State) : Result :=
  withS s a fun base =>
  needSpan s (effAddr base imm) 4 fun _ =>
  done ((s.afterLoad (effAddr base imm) 1).setS d (coeff (loaded s (effAddr base imm) 1) 0))

/-- S.SW sd, imm(sa) (R223). -/
def execSSw (d a : SIdx) (imm : Word) (s : State) : Result :=
  withS s a fun base =>
  withS s d fun v =>
  needSpan s (effAddr base imm) 4 fun _ =>
  done (s.store (effAddr base imm).toNat [v])

end Sys2Proof.Machine
end

