-- ==== Sys2Proof/Machine/Csr.lean ====
section
/-! DEFINITION. Machine/Csr.lean: the CSR space (spec 10_state.md R50 to R56), read and written alike by
CSRR and CSRW (R212, R213) and by the host's CSR window (R541). -/

namespace Sys2Proof.Machine

/-- R53 BG: `1 << Bgbit`, 0 for Bgbit = 32. -/
def csrBg (s : State) : Word := BitVec.ofNat 32 (2 ^ s.gadBits)

/-- A derived CSR reads 0 while its predicate is false (R53). -/
def csrIf (ok : Bool) (v : Word) : Word := if ok then v else 0

/-- R53 CFG_VALID: one bit for each predicate. -/
def csrCfgValid (s : State) : Word :=
  BitVec.ofNat 32 (s.nOk.toNat + 2 * s.kOk.toNat + 4 * s.lweOk.toNat + 8 * s.gadOk.toNat
    + 16 * s.ksOk.toNat + 32 * s.bkFit.toNat)

/-- R53 KEYSTAT: bit 0 KEYL valid, bit 1 KEYR valid. -/
def csrKeyStat (s : State) : Word := BitVec.ofNat 32 (s.keyL.isSome.toNat + 2 * s.keyR.isSome.toNat)

/-- The value of a CSR, `none` where the number is not listed (R50, R51, R53, R54). Derived CSRs are
computed at the time of the read. -/
def csrRead (s : State) (c : Nat) : Option Word :=
  match c with
  | 0x000 => some s.csr.n
  | 0x001 => some s.csr.k
  | 0x002 => some s.csr.lweN
  | 0x003 => some s.csr.bkL
  | 0x004 => some s.csr.bkBgbit
  | 0x005 => some s.csr.ksT
  | 0x006 => some s.csr.ksBasebit
  | 0x007 => some s.csr.alphaLo
  | 0x008 => some s.csr.alphaHi
  | 0x009 => some s.csr.kskBase
  | 0x010 => some (csrIf s.gadOk (csrBg s))
  | 0x011 => some (csrIf s.gadOk (BitVec.ofNat 32 (2 ^ (s.gadBits - 1))))
  | 0x012 => some (csrIf s.gadOk (csrBg s - 1))
  | 0x013 => some (csrIf s.gadOk (decOffset s.gadL s.gadBits))
  | 0x014 => some (csrIf (s.kOk && s.gadOk) (BitVec.ofNat 32 s.kpl))
  | 0x015 => some (csrIf s.ksOk (ksPrec s.ksT s.ksBits))
  | 0x016 => some (csrIf s.ringOk (BitVec.ofNat 32 s.extN))
  | 0x017 => some (csrCfgValid s)
  | 0x018 => some (csrKeyStat s)
  | 0x0F0 => some 0x54464845
  | 0x0F1 => some 7
  | 0x0F2 => some (BitVec.ofNat 32 Config.nMax)
  | 0x0F3 => some (BitVec.ofNat 32 Config.dimMax)
  | 0x0F4 => some (BitVec.ofNat 32 s.params.bkSlots)
  | 0x0F5 => some (BitVec.ofNat 32 s.params.dmemSize)
  | 0x0F6 => some (BitVec.ofNat 32 s.params.imemSize)
  | _ => none

/-- R51: the read-write CSRs are 0x000 to 0x009. -/
def csrIsRw (c : Nat) : Bool := c < 10

/-- R50, R51: a write stores all 32 bits unchanged; a number that is not read-write changes nothing. -/
def Csrs.put (x : Csrs) (c : Nat) (v : Word) : Csrs :=
  match c with
  | 0x000 => { x with n := v }
  | 0x001 => { x with k := v }
  | 0x002 => { x with lweN := v }
  | 0x003 => { x with bkL := v }
  | 0x004 => { x with bkBgbit := v }
  | 0x005 => { x with ksT := v }
  | 0x006 => { x with ksBasebit := v }
  | 0x007 => { x with alphaLo := v }
  | 0x008 => { x with alphaHi := v }
  | 0x009 => { x with kskBase := v }
  | _ => x

/-- CSR[c] <- v. -/
def State.setCsr (s : State) (c : Nat) (v : Word) : State := { s with csr := s.csr.put c v }

end Sys2Proof.Machine
end

