-- ==== Sys2Proof/Machine/System.lean ====
section
/-! DEFINITION. Machine/System.lean: NOP, HALT, CSRR, CSRW (spec 40_sequencer.md R210 to R213). -/

namespace Sys2Proof.Machine

/-- NOP (R210). -/
def execNop (s : State) : Result := done s

/-- HALT (R211): pc stays at the HALT's own address. -/
def execHalt (s : State) : Result := .next s.halt

/-- CSRR sd, csr (R212): the number is checked even when d = 0. -/
def execCsrr (d : SIdx) (csr : Nat) (s : State) : Result :=
  match csrRead s csr with
  | some v => done (s.setS d v)
  | none => raise s (.illegalCsr csr)

/-- CSRW csr, sa (R213): first the number, then the source; all 32 bits are stored. -/
def execCsrw (a : SIdx) (csr : Nat) (s : State) : Result :=
  need s (csrIsRw csr) (.illegalCsr csr) fun _ =>
  withS s a fun v =>
  done (s.setCsr csr v)

end Sys2Proof.Machine
end

