-- ==== Sys2Proof/Machine/Torus.lean ====
section
/-! DEFINITION. Machine/Torus.lean: the torus scalar instructions (spec 41_torus.md R260 to R268). -/

namespace Sys2Proof.Machine

/-- MSW.F sd, sa, sb (R265). -/
def execMswF (d a b : SIdx) (s : State) : Result :=
  withS s a fun x =>
  withS s b fun m =>
  needModulus s m fun _ =>
  done (s.setS d (BitVec.ofNat 32 (msfrom x m.toNat)))

/-- MSW.T sd, sa, sb (R266): M is checked before μ. -/
def execMswT (d a b : SIdx) (s : State) : Result :=
  withS s a fun mu =>
  withS s b fun m =>
  needModulus s m fun _ =>
  needBelow s mu m.toNat fun _ =>
  done (s.setS d (BitVec.ofNat 32 (mstot mu.toNat m.toNat)))

/-- APHASE sd, sa, sb (R267). -/
def execAphase (d a b : SIdx) (s : State) : Result :=
  withS s a fun x =>
  withS s b fun m =>
  needModulus s m fun _ =>
  done (s.setS d (approx x m.toNat))

/-- R264: `gauss(μ, α)` with the draw numbered `k`. -/
def gaussAt (mu : Word) (alpha : F64) (k : Nat) : Word := mu + u32 (drawGauss alpha k)

/-- GAUSS sd, sa (R268): one Gaussian draw. -/
def execGauss (d a : SIdx) (s : State) : Result :=
  withS s a fun mu =>
  done ((s.setS d (gaussAt mu s.alpha s.drawCtr)).bump 1)

end Sys2Proof.Machine
end

