-- ==== Sys2Proof/Machine/Dispatch.lean ====
section
/-! DEFINITION. Machine/Dispatch.lean: what each instruction does, one arm per constructor of `Instr`. -/

namespace Sys2Proof.Machine

def exec (i : Instr) (s : State) : Host.Outcome State Fault Refusal :=
  match i with
  -- Machine/System.lean
  | .nop => Sys2Proof.Machine.execNop s
  | .halt => Sys2Proof.Machine.execHalt s
  | .csrr d csr => Sys2Proof.Machine.execCsrr d csr s
  | .csrw a csr => Sys2Proof.Machine.execCsrw a csr s
  -- Machine/Scalar.lean
  | .sLi d imm => Sys2Proof.Machine.execSLi d imm s
  | .sAddi d a imm => Sys2Proof.Machine.execSAddi d a imm s
  | .sAdd d a b => Sys2Proof.Machine.execSAdd d a b s
  | .sSub d a b => Sys2Proof.Machine.execSSub d a b s
  | .sMul d a b => Sys2Proof.Machine.execSMul d a b s
  | .sAnd d a b => Sys2Proof.Machine.execSAnd d a b s
  | .sSll d a b => Sys2Proof.Machine.execSSll d a b s
  | .sSrl d a b => Sys2Proof.Machine.execSSrl d a b s
  | .sLw d a imm => Sys2Proof.Machine.execSLw d a imm s
  | .sSw d a imm => Sys2Proof.Machine.execSSw d a imm s
  -- Machine/Control.lean
  | .beq a b imm => Sys2Proof.Machine.execBeq a b imm s
  | .bne a b imm => Sys2Proof.Machine.execBne a b imm s
  | .blt a b imm => Sys2Proof.Machine.execBlt a b imm s
  | .bltu a b imm => Sys2Proof.Machine.execBltu a b imm s
  | .jmp imm => Sys2Proof.Machine.execJmp imm s
  | .jal d imm => Sys2Proof.Machine.execJal d imm s
  | .jr a => Sys2Proof.Machine.execJr a s
  -- Machine/Torus.lean
  | .mswF d a b => Sys2Proof.Machine.execMswF d a b s
  | .mswT d a b => Sys2Proof.Machine.execMswT d a b s
  | .aphase d a b => Sys2Proof.Machine.execAphase d a b s
  | .gauss d a => Sys2Proof.Machine.execGauss d a s
  -- Machine/Poly.lean
  | .pClr d => Sys2Proof.Machine.execPClr d s
  | .pAdd d a b => Sys2Proof.Machine.execPAdd d a b s
  | .pSub d a b => Sys2Proof.Machine.execPSub d a b s
  | .pAddmulz d a b => Sys2Proof.Machine.execPAddmulz d a b s
  | .pMulxai d a b => Sys2Proof.Machine.execPMulxai d a b s
  | .pMulxaim1 d a b => Sys2Proof.Machine.execPMulxaim1 d a b s
  | .pMulfft d a b => Sys2Proof.Machine.execPMulfft d a b s
  | .pLd d a imm => Sys2Proof.Machine.execPLd d a imm s
  | .pSt d a imm => Sys2Proof.Machine.execPSt d a imm s
  -- Machine/Fft.lean
  | .fClr d => Sys2Proof.Machine.execFClr d s
  | .fFwdi d a => Sys2Proof.Machine.execFFwdi d a s
  | .fFwdt d a => Sys2Proof.Machine.execFFwdt d a s
  | .fInv d a => Sys2Proof.Machine.execFInv d a s
  | .fMuladd d a b => Sys2Proof.Machine.execFMuladd d a b s
  | .fMono d a => Sys2Proof.Machine.execFMono d a s
  -- Machine/Lwe.lean
  | .lEnc d a => Sys2Proof.Machine.execLEnc d a s
  | .lEncX d a => Sys2Proof.Machine.execLEncX d a s
  | .lDec d a b => Sys2Proof.Machine.execLDec d a b s
  | .lDecX d a b => Sys2Proof.Machine.execLDecX d a b s
  | .lPhase d a => Sys2Proof.Machine.execLPhase d a s
  | .lPhaseX d a => Sys2Proof.Machine.execLPhaseX d a s
  | .lTriv d a => Sys2Proof.Machine.execLTriv d a s
  | .lTrivX d a => Sys2Proof.Machine.execLTrivX d a s
  | .lAdd d a => Sys2Proof.Machine.execLAdd d a s
  | .lSub d a => Sys2Proof.Machine.execLSub d a s
  | .lAddmul d a b => Sys2Proof.Machine.execLAddmul d a b s
  | .lSubmul d a b => Sys2Proof.Machine.execLSubmul d a b s
  | .lNeg d a => Sys2Proof.Machine.execLNeg d a s
  | .lCopy d a => Sys2Proof.Machine.execLCopy d a s
  | .lLd d a imm => Sys2Proof.Machine.execLLd d a imm s
  | .lLdX d a imm => Sys2Proof.Machine.execLLdX d a imm s
  | .lSt d a imm => Sys2Proof.Machine.execLSt d a imm s
  | .keyLdl a imm => Sys2Proof.Machine.execKeyLdl a imm s
  -- Machine/Rlwe.lean
  | .rEnc0 d => Sys2Proof.Machine.execREnc0 d s
  | .rEnc d a => Sys2Proof.Machine.execREnc d a s
  | .rPhase d a => Sys2Proof.Machine.execRPhase d a s
  | .rTriv d a => Sys2Proof.Machine.execRTriv d a s
  | .rAdd d a => Sys2Proof.Machine.execRAdd d a s
  | .rSub d a => Sys2Proof.Machine.execRSub d a s
  | .rAddmulr d a b => Sys2Proof.Machine.execRAddmulr d a b s
  | .rMulxaim1 d a b => Sys2Proof.Machine.execRMulxaim1 d a b s
  | .rExtract d a b => Sys2Proof.Machine.execRExtract d a b s
  | .rLd d a imm => Sys2Proof.Machine.execRLd d a imm s
  | .rSt d a imm => Sys2Proof.Machine.execRSt d a imm s
  | .keyLdr a imm => Sys2Proof.Machine.execKeyLdr a imm s
  -- Machine/Rgsw.lean
  | .gDecomp d a => Sys2Proof.Machine.execGDecomp d a s
  | .gEnc a b => Sys2Proof.Machine.execGEnc a b s
  | .gLd d a imm => Sys2Proof.Machine.execGLd d a imm s
  | .gExtprod d a b => Sys2Proof.Machine.execGExtprod d a b s
  -- Machine/KeySwitch.lean
  | .ks d a => Sys2Proof.Machine.execKs d a s
  -- Machine/Bootstrap.lean
  | .brRot d a b => Sys2Proof.Machine.execBrRot d a b s
  | .bootNks d a b => Sys2Proof.Machine.execBootNks d a b s
  | .boot d a b => Sys2Proof.Machine.execBoot d a b s

end Sys2Proof.Machine
end

