-- ==== Sys2Proof/Machine/Port.lean ====
section
/-! DEFINITION. Machine/Port.lean: the host port (spec 10_state.md R60 to R65, 20_memory.md R116 and R121,
60_exceptions.md R525 and R540 to R542). Every access is one aligned word (R540) and completes at once. -/

namespace Sys2Proof.Machine

/-- R525: the interrupt line to the host, `IRQ_PENDING ∧ IRQ_EN[0]`. -/
def State.irqOut (s : State) : Bool := s.irqPending && s.irqEn

/-- R62: STATUS, STATE in bits 1:0 and IRQ_PENDING in bit 8. -/
def State.status (s : State) : Word := s.runState.code + (if s.irqPending then 0x100 else 0)

/-- R60: what a register of the host register block reads; any other offset reads 0. -/
def regRead (s : State) (off : Nat) : Word :=
  match off with
  | 0x000 => (csrRead s 0x0F0).getD 0
  | 0x004 => (csrRead s 0x0F1).getD 0
  | 0x00C => s.status
  | 0x010 => if s.irqEn then 1 else 0
  | 0x014 => s.startPc
  | 0x018 => s.pc
  | 0x01C => s.cause.code
  | 0x020 => s.faultPc
  | 0x024 => s.faultInfo
  | _ => 0

/-- R61: CTRL. RESET in any STATE; otherwise START while STATE ≠ RUNNING. -/
def ctrlWrite (s : State) (v : Word) : State :=
  if v.getLsbD 1 then s.hostReset
  else if v.getLsbD 0 && s.runState != .running then s.start
  else s

/-- R60 to R65: a write to the host register block, accepted in every STATE (R541). -/
def regWrite (s : State) (off : Nat) (v : Word) : State :=
  match off with
  | 0x008 => ctrlWrite s v
  | 0x00C => if v.getLsbD 8 then { s with irqPending := false } else s
  | 0x010 => { s with irqEn := v.getLsbD 0 }
  | 0x014 => { s with startPc := v }
  | _ => s

/-- R116: the four windows of the host port, each with the offset inside it. -/
inductive Window where
  | regs (off : Nat)
  | csr (c : Nat)
  | imem (addr : Nat)
  | dmem (addr : Nat)
  | outside
deriving DecidableEq, Repr

/-- R116, R540: the window of a host offset, aligned down to a word. -/
def windowOf (p : Params) (off : Word) : Window :=
  let o := off.toNat / 4 * 4
  if o < 0x1000 then .regs o
  else if o < 0x5000 then .csr ((o - 0x1000) / 4)
  else if 0x01000000 ≤ o ∧ o < 0x01000000 + p.imemSize then .imem (o - 0x01000000)
  else if 0x10000000 ≤ o ∧ o < 0x10000000 + p.dmemSize then .dmem (o - 0x10000000)
  else .outside

/-- R541: a host read of one word of a memory; a never-written word is a draw (R107). -/
def portMemRead (s : State) (m : Memory) (addr : Nat) : Word × State :=
  (coeff (loadWords m s.drawCtr addr 1).1 0, { s with drawCtr := (loadWords m s.drawCtr addr 1).2 })

/-- R541: what a host read returns, and the state after it. While RUNNING the CSR, IMEM and DMEM
windows read 0 (R121). -/
def portRead (s : State) (off : Word) : Word × State :=
  match windowOf s.params off with
  | .regs o => (regRead s o, s)
  | .csr c => if s.runState = .running then (0, s) else ((csrRead s c).getD 0, s)
  | .imem addr => if s.runState = .running then (0, s) else portMemRead s s.imem addr
  | .dmem addr => if s.runState = .running then (0, s) else portMemRead s s.dmem addr
  | .outside => (0, s)

/-- R541: a host write. While RUNNING the CSR, IMEM and DMEM windows ignore it (R121); a read-only or
unlisted CSR ignores it always. -/
def portWrite (s : State) (off v : Word) : State :=
  match windowOf s.params off with
  | .regs o => regWrite s o v
  | .csr c => if s.runState = .running then s else if csrIsRw c then s.setCsr c v else s
  | .imem addr => if s.runState = .running then s else { s with imem := memSetWord s.imem addr v }
  | .dmem addr => if s.runState = .running then s else { s with dmem := memSetWord s.dmem addr v }
  | .outside => s

/-- A host read as a move of the host: the word is appended to the host's record. -/
def hostRead (s : State) (off : Word) : State :=
  { (portRead s off).2 with hostOut := (portRead s off).1 :: (portRead s off).2.hostOut }

end Sys2Proof.Machine
end

