-- ==== Sys2Proof/Machine/Cycle.lean ====
section
/-! DEFINITION. Machine/Cycle.lean: one turn of the machine: the instruction cycle of the sequencer (spec
40_sequencer.md R200) and the turns of the host (R540, log 5). Step.lean only calls this. -/

namespace Sys2Proof.Machine

/-- R33, R200 items 1 and 2: what is wrong with fetching at pc, if anything. -/
def fetchFault (s : State) : Option Exc :=
  if s.pc.toNat % 8 ≠ 0 then some ⟨.fetchMisaligned, s.pc⟩
  else if s.params.imemSize < s.pc.toNat + 8 then some ⟨.fetchOob, s.pc⟩
  else none

/-- R140: the two IMEM words at pc, bits 31:0 first. A never-written word is a draw (R107). -/
def fetchWords (s : State) : List Word × Nat := loadWords s.imem s.drawCtr s.pc.toNat 2

/-- R140: FetchWord(pc). -/
def fetchWord (s : State) : InstrWord := coeff (fetchWords s).1 1 ++ coeff (fetchWords s).1 0

/-- The state after the fetch: only draws of never-written words have been made. -/
def State.afterFetch (s : State) : State := { s with drawCtr := (fetchWords s).2 }

/-- R200 items 4 and 5: the row's rule, or ILLEGAL_INSTR. -/
def runWord (w : InstrWord) (s : State) : Result :=
  match decode w with
  | .ok i => exec i s
  | .error _ => raise s (.illegalInstr w)

/-- R200: one instruction, or nothing at all while STATE ≠ RUNNING (R538; log 10). -/
def cycle (s : State) : Result :=
  match s.runState with
  | .running =>
    match fetchFault s with
    | some x => raise s x
    | none => runWord (fetchWord s) s.afterFetch
  | _ => .next s

/-- One turn: the host's next turn first. Where it is quiet, or there is none, the sequencer has its
turn. An access lands between two instructions (R531). -/
def turn (s : State) : Result :=
  match s.hostIn with
  | [] => cycle s
  | .quiet :: rest => cycle { s with hostIn := rest }
  | .read off :: rest => .next (hostRead { s with hostIn := rest } off)
  | .write off v :: rest => .next (portWrite { s with hostIn := rest } off v)

/-- R14: the eight bytes of an instruction word stored in IMEM. -/
def storeInstr (m : Memory) (addr : Nat) (w : InstrWord) : Memory :=
  storeWords m addr [w.extractLsb' 0 32, w.extractLsb' 32 32]

/-- The state in which the next turn fetches and runs the word (log 1): the word lies in IMEM at pc, or at
0 where nothing can be fetched at pc; STATE = RUNNING, as after a START; and no host access comes
first. -/
def State.readyToRun (s : State) (w : InstrWord) : State :=
  let pc := if (fetchFault s).isNone then s.pc else 0
  { s with pc := pc, imem := storeInstr s.imem pc.toNat w, runState := .running, hostIn := [] }

end Sys2Proof.Machine
end

