-- ==== Sys2Proof/Machine/Step.lean ====
section
/-! DEFINITION. Machine/Step.lean: the step of the machine and the host's question where it fetches. Both
only call Machine/Cycle.lean. -/

namespace Sys2Proof.Machine

/-- One step: one turn of the host or one instruction of the sequencer (R200, R540; log 5). -/
def step (s : State) : Host.Outcome State Fault Refusal := turn s

/-- The state whose next step fetches and runs the instruction with the given bits (log 1). -/
def State.withFetchWord (s : State) (nbits w : Nat) : State :=
  s.readyToRun (BitVec.ofNat 64 (w % 2 ^ nbits))

end Sys2Proof.Machine
end

