-- ==== Sys2Proof/Machine/Gates.lean ====
section
/-! DEFINITION. Machine/Gates.lean: the gate layer as instruction sequences (spec 48_bootstrap.md R495 to
R500) and the CSR images of the two named parameter sets (R3, R574). Nothing in the step reads this
file: a gate is a program. -/

namespace Sys2Proof.Machine

/-- R495: +1/8, which is also μ and "true" (R260). -/
def torusEighth : Word := 0x20000000
/-- R495: −1/8, "false" (R260). -/
def torusNegEighth : Word := 0xE0000000
/-- R495: +1/4. -/
def torusQuarter : Word := 0x40000000
/-- R495: −1/4. -/
def torusNegQuarter : Word := 0xC0000000

/-- R260: the payload of a truth value. -/
def torusOfBool (v : Bool) : Word := if v then torusEighth else torusNegEighth

/-- R497: the ten bootstrapped two-input gates. -/
inductive Gate where
  | nand | or | and | nor | xor | xnor | andny | andyn | orny | oryn
deriving DecidableEq, Repr

/-- R496: the linear form of a gate: bias, whether each input is subtracted, and the multiplier. -/
structure GateForm where
  bias : Word
  subA : Bool
  subB : Bool
  twice : Bool
deriving DecidableEq, Repr

/-- R497: the pre-bootstrap expression of each gate. -/
def Gate.form : Gate → GateForm
  | .nand => ⟨torusEighth, true, true, false⟩
  | .or => ⟨torusEighth, false, false, false⟩
  | .and => ⟨torusNegEighth, false, false, false⟩
  | .nor => ⟨torusNegEighth, true, true, false⟩
  | .xor => ⟨torusQuarter, false, false, true⟩
  | .xnor => ⟨torusNegQuarter, true, true, true⟩
  | .andny => ⟨torusNegEighth, true, false, false⟩
  | .andyn => ⟨torusNegEighth, false, true, false⟩
  | .orny => ⟨torusEighth, true, false, false⟩
  | .oryn => ⟨torusEighth, false, true, false⟩

/-- R498: the Boolean function a gate is named after. -/
def Gate.truth (g : Gate) (a b : Bool) : Bool :=
  match g with
  | .nand => !(a && b)
  | .or => a || b
  | .and => a && b
  | .nor => !(a || b)
  | .xor => a != b
  | .xnor => a == b
  | .andny => !a && b
  | .andyn => a && !b
  | .orny => !a || b
  | .oryn => a || !b

/-- R496: one input's part of the combined phase. -/
def gateTerm (sub twice : Bool) (x : Word) : Word :=
  let y := if twice then 2 * x else x
  if sub then -y else y

/-- R496, R498: the combined phase of a gate on two payloads, noise ignored. -/
def Gate.phase (g : Gate) (a b : Bool) : Word :=
  g.form.bias + gateTerm g.form.subA g.form.twice (torusOfBool a)
    + gateTerm g.form.subB g.form.twice (torusOfBool b)

/-- R497: the instruction that adds one input into l0. -/
def gateStep (sub twice : Bool) (x : LIdx) : Instr :=
  match sub, twice with
  | false, false => .lAdd 0 x
  | true, false => .lSub 0 x
  | false, true => .lAddmul 0 x 3
  | true, true => .lSubmul 0 x 3

/-- R497: the sequence of a gate: inputs in l1 and l2, output in l0, s1 the bias, s2 = μ, s3 = 2. -/
def Gate.code (g : Gate) : List Instr :=
  [.sLi 1 g.form.bias, .lTriv 0 1, gateStep g.form.subA g.form.twice 1,
   gateStep g.form.subB g.form.twice 2, .boot 0 0 2]

/-- R499: NOT. -/
def notCode : List Instr := [.lNeg 0 1]

/-- R499: COPY. -/
def copyCode : List Instr := [.lCopy 0 1]

/-- R499: CONSTANT. -/
def constantCode (v : Bool) : List Instr := [.sLi 1 (torusOfBool v), .lTriv 0 1]

/-- R500: MUX, with sel in l1, a in l2 and b in l3; the result in l0. -/
def muxCode : List Instr :=
  [.sLi 1 torusNegEighth, .sLi 2 torusEighth,
   .lTriv 4 1, .lSub 4 1, .lAdd 4 3, .bootNks 5 4 2,
   .lTriv 4 1, .lAdd 4 1, .lAdd 4 2, .bootNks 6 4 2,
   .lTrivX 0 2, .lAdd 0 5, .lAdd 0 6, .ks 0 0]

/-- R3, R574: the CSR image of PSET128, the reset values. -/
def pset128 : List (Nat × Word) :=
  [(0, 1024), (1, 1), (2, 630), (3, 3), (4, 7), (5, 8), (6, 2), (7, 0x00000000), (8, 0x3F000000)]

/-- R3, R574: the CSR image of PSET80. -/
def pset80 : List (Nat × Word) :=
  [(0, 1024), (1, 1), (2, 500), (3, 2), (4, 10), (5, 8), (6, 2), (7, 0x3B7BD711), (8, 0x3EF995D3)]

/-- R574: the noise parameter of the bootstrapping key of PSET128, 2^−25. -/
def bkAlpha128 : F64 := 0x3E60000000000000

/-- R574: the noise parameter of the bootstrapping key of PSET80, 7.18e−9. -/
def bkAlpha80 : F64 := 0x3E3ED67E55313C0D

/-- R572, R574: the parameter CSRs after a run of writes. -/
def Csrs.load (x : Csrs) (image : List (Nat × Word)) : Csrs :=
  image.foldl (fun y p => y.put p.1 p.2) x

end Sys2Proof.Machine
end

