-- ==== Sys2Proof/Safety.lean ====
section
/-! DEFINITION. Safety.lean: what every reachable state satisfies (`State.Wf`), and what an instruction may
change (`Frame`), in the terms the statements use. Both are read from the spec's register rules and from
the destination of each instruction rule, not from the meanings. -/

namespace Sys2Proof.Machine

/-! ### Legal shapes -/

/-- R52 N_OK, of a stored degree tag. -/
def degreeOk (n : Nat) : Prop := n ∈ [2, 4, 8, 16, 32, 64, 128, 256, 512, 1024, 2048]

/-- R52 K_OK, of a stored rank tag. -/
def rankOk (k : Nat) : Prop := k = 1 ∨ k = 2

/-- R9: the legal sizes of an implementation. -/
structure Params.Ok (p : Params) : Prop where
  imemAligned : p.imemSize % 8 = 0
  imemMin : 8 ≤ p.imemSize
  imemMax : p.imemSize ≤ 2 ^ 24
  dmemAligned : p.dmemSize % 4 = 0
  dmemMin : 4 ≤ p.dmemSize
  dmemMax : p.dmemSize ≤ 2 ^ 28
  slotsMin : 1 ≤ p.bkSlots
  slotsMax : p.bkSlots ≤ Config.dimMax

/-- A memory of `size` bytes: canonical, within its range (R100), and written in whole words only (R103). -/
structure Memory.Ok (m : Memory) (size : Nat) : Prop where
  canonical : Memory.wf m
  inRange : ∀ c ∈ m, c.1 < size
  wholeWords : ∀ a b, a / 4 = b / 4 → (memByte m a).isSome = (memByte m b).isSome

/-- R34: a valid P register. -/
structure PReg.Ok (x : PReg) : Prop where
  deg : degreeOk x.deg
  len : x.c.length = x.deg

/-- R321: what an error class says of the represented polynomial. -/
def ErrClass.Ok (v : List Int) : ErrClass → Prop
  | .z => ∀ z ∈ v, z = 0
  | .i b => 1 ≤ b ∧ ∀ z ∈ v, -2 ^ (b - 1) ≤ z ∧ z < 2 ^ (b - 1)
  | .t => ∀ z ∈ v, -2 ^ 31 ≤ z ∧ z < 2 ^ 31
  | .m _ c => 1 ≤ c
  | .g => True

/-- R35, R320, R321: a valid F register. -/
structure FReg.Ok (x : FReg) : Prop where
  deg : degreeOk x.deg
  len : x.v.length = x.deg
  cls : x.cls.Ok x.v

/-- R36: a valid L register. -/
structure LReg.Ok (x : LReg) : Prop where
  dimMin : 1 ≤ x.dim
  dimMax : x.dim ≤ Config.dimMax
  len : x.a.length = x.dim

/-- R37, R38: an RLWE value of degree `n` and rank `k`. -/
structure Rlwe.Ok (x : Rlwe) (n k : Nat) : Prop where
  comps : x.comp.length = k + 1
  lens : ∀ c ∈ x.comp, c.length = n

/-- R37: a valid R register. -/
structure RReg.Ok (x : RReg) : Prop where
  deg : degreeOk x.deg
  rank : rankOk x.k
  val : x.val.Ok x.deg x.k

/-- R38: a valid BK slot. -/
structure Rgsw.Ok (x : Rgsw) : Prop where
  deg : degreeOk x.deg
  rank : rankOk x.k
  lenMin : 1 ≤ x.l
  baseMin : 1 ≤ x.bgbit
  fits : x.l * x.bgbit ≤ 32
  count : x.rows.length = (x.k + 1) * x.l
  rows : ∀ r ∈ x.rows, r.Ok x.deg x.k

/-- R39: a valid KEYL. -/
structure KeyL.Ok (x : KeyL) : Prop where
  dimMin : 1 ≤ x.dim
  dimMax : x.dim ≤ Config.dimMax
  len : x.s.length = x.dim

/-- R40: a valid KEYR. -/
structure KeyR.Ok (x : KeyR) : Prop where
  deg : degreeOk x.deg
  rank : rankOk x.k
  count : x.s.length = x.k
  lens : ∀ q ∈ x.s, q.length = x.deg

/-! ### The invariant -/

/-- What every reachable state satisfies. -/
structure State.Wf (s : State) : Prop where
  /-- R9 -/
  params : s.params.Ok
  /-- R32: S0 is hard-wired. -/
  s0 : s.sRegs[0] = some 0
  /-- R34 -/
  pOk : ∀ (i : PIdx) x, s.pRegs[i] = some x → x.Ok
  /-- R35 -/
  fOk : ∀ (i : FIdx) x, s.fRegs[i] = some x → x.Ok
  /-- R36 -/
  lOk : ∀ (i : LIdx) x, s.lRegs[i] = some x → x.Ok
  /-- R37 -/
  rOk : ∀ (i : RIdx) x, s.rRegs[i] = some x → x.Ok
  /-- R38: the slots that are listed exist, in rising order. -/
  bkCanonical : Assoc.wf s.bk
  bkInRange : ∀ e ∈ s.bk, e.1 < s.params.bkSlots
  bkOk : ∀ e ∈ s.bk, e.2.Ok
  /-- R39 -/
  keyLOk : ∀ x, s.keyL = some x → x.Ok
  /-- R40 -/
  keyROk : ∀ x, s.keyR = some x → x.Ok
  /-- R71, R100 -/
  imemOk : s.imem.Ok s.params.imemSize
  dmemOk : s.dmem.Ok s.params.dmemSize
  /-- R65, R521, R523: a cause is recorded exactly while FAULTED. -/
  faulted : s.cause ≠ .none ↔ s.runState = .faulted
  /-- R65: with no fault, FAULT_PC and FAULT_INFO are 0. -/
  noFault : s.cause = .none → s.faultPc = 0 ∧ s.faultInfo = 0
  /-- R62: IRQ_PENDING is set on entry to HALTED or FAULTED and cleared by START and reset. -/
  pending : s.irqPending = true → s.runState = .halted ∨ s.runState = .faulted

/-! ### What an instruction may change -/

/-- The scalar register an instruction's rule writes, S0 included. -/
def destS : Instr → Option SIdx
  | .csrr d _ | .sLi d _ | .sAddi d _ _ | .sAdd d _ _ | .sSub d _ _ | .sMul d _ _ | .sAnd d _ _
  | .sSll d _ _ | .sSrl d _ _ | .sLw d _ _ | .jal d _ | .mswF d _ _ | .mswT d _ _ | .aphase d _ _
  | .gauss d _ | .lDec d _ _ | .lDecX d _ _ | .lPhase d _ | .lPhaseX d _ => some d
  | _ => none

/-- Whether an instruction's rule writes a polynomial register; G.DECOMP writes l of them (R440). -/
def destP (i : Instr) (s : State) (j : PIdx) : Bool :=
  match i with
  | .pClr d | .pAdd d _ _ | .pSub d _ _ | .pAddmulz d _ _ | .pMulxai d _ _ | .pMulxaim1 d _ _
  | .pMulfft d _ _ | .pLd d _ _ | .fInv d _ | .rPhase d _ => d == j
  | .gDecomp d _ => d.val ≤ j.val && j.val < d.val + s.gadL
  | _ => false

/-- The Fourier register an instruction's rule writes. -/
def destF : Instr → Option FIdx
  | .fClr d | .fFwdi d _ | .fFwdt d _ | .fMuladd d _ _ | .fMono d _ => some d
  | _ => none

/-- The LWE register an instruction's rule writes. -/
def destL : Instr → Option LIdx
  | .lEnc d _ | .lEncX d _ | .lTriv d _ | .lTrivX d _ | .lAdd d _ | .lSub d _ | .lAddmul d _ _
  | .lSubmul d _ _ | .lNeg d _ | .lCopy d _ | .lLd d _ _ | .lLdX d _ _ | .rExtract d _ _ | .ks d _
  | .bootNks d _ _ | .boot d _ _ => some d
  | _ => none

/-- The RLWE register an instruction's rule writes. -/
def destR : Instr → Option RIdx
  | .rEnc0 d | .rEnc d _ | .rTriv d _ | .rAdd d _ | .rSub d _ | .rAddmulr d _ _ | .rMulxaim1 d _ _
  | .rLd d _ _ | .gExtprod d _ _ | .brRot d _ _ => some d
  | _ => none

/-- The BK slot an instruction's rule writes, by the value of its slot register (R441, R442). -/
def destSlot (i : Instr) (s : State) : Option Nat :=
  match i with
  | .gEnc a _ => (s.getS a).map fun v => v.toNat
  | .gLd d _ _ => (s.getS d).map fun v => v.toNat
  | _ => none

/-- Only KEY.LDL writes KEYL (R39). -/
def writesKeyL : Instr → Bool
  | .keyLdl _ _ => true
  | _ => false

/-- Only KEY.LDR writes KEYR (R40). -/
def writesKeyR : Instr → Bool
  | .keyLdr _ _ => true
  | _ => false

/-- The CSR an instruction's rule writes (R213). -/
def destCsr : Instr → Option Nat
  | .csrw _ c => some c
  | _ => none

/-- The bytes an instruction stores to: the effective address (R108) and the count (R110, R111, R113). -/
def storedBytes (i : Instr) (s : State) : Option (Nat × Nat) :=
  match i with
  | .sSw _ a imm => (s.getS a).map fun v => ((effAddr v imm).toNat, 4)
  | .pSt _ a imm => (s.getS a).map fun v => ((effAddr v imm).toNat, 4 * s.ringN)
  | .lSt d a imm =>
    match s.getS a, s.lRegs[d] with
    | some v, some x => some ((effAddr v imm).toNat, lStride x.dim)
    | _, _ => none
  | .rSt _ a imm => (s.getS a).map fun v => ((effAddr v imm).toNat, rStride s.ringN s.rankK)
  | _ => none

/-- The instructions that transfer control or stop (R203). -/
def isControl : Instr → Bool
  | .halt | .beq .. | .bne .. | .blt .. | .bltu .. | .jmp .. | .jal .. | .jr .. => true
  | _ => false

/-- R39: L.ENC, L.DEC and L.PHASE with key select 0 read KEYL. -/
def readsKeyL : Instr → Bool
  | .lEnc _ _ | .lDec _ _ _ | .lPhase _ _ => true
  | _ => false

/-- R40: the RLWE encryptions, R.PHASE, G.ENC, and the X = 1 forms read KEYR. -/
def readsKeyR : Instr → Bool
  | .lEncX _ _ | .lDecX _ _ _ | .lPhaseX _ _ | .rEnc0 _ | .rEnc _ _ | .rPhase _ _ | .gEnc _ _ => true
  | _ => false

/-- The instructions whose first check is N_OK (R280, R390 and their rules; the X = 1 forms by R350). -/
def needsDegree : Instr → Bool
  | .pClr .. | .pAdd .. | .pSub .. | .pAddmulz .. | .pMulxai .. | .pMulxaim1 .. | .pMulfft .. | .pLd ..
  | .pSt .. | .fClr .. | .fFwdi .. | .fFwdt .. | .fInv .. | .fMuladd .. | .fMono .. | .lEncX .. | .lDecX ..
  | .lPhaseX .. | .lTrivX .. | .lLdX .. | .rEnc0 .. | .rEnc .. | .rPhase .. | .rTriv .. | .rAdd .. | .rSub ..
  | .rAddmulr .. | .rMulxaim1 .. | .rExtract .. | .rLd .. | .rSt .. | .keyLdr .. | .gDecomp .. | .gEnc ..
  | .gLd .. | .gExtprod .. | .ks .. | .brRot .. | .bootNks .. | .boot .. => true
  | _ => false

/-- The instructions that need K_OK right after N_OK (R390, R350, R460, R480). -/
def needsRank : Instr → Bool
  | .lEncX .. | .lDecX .. | .lPhaseX .. | .lTrivX .. | .lLdX .. | .rEnc0 .. | .rEnc .. | .rPhase .. | .rTriv ..
  | .rAdd .. | .rSub .. | .rAddmulr .. | .rMulxaim1 .. | .rExtract .. | .rLd .. | .rSt .. | .keyLdr ..
  | .gEnc .. | .gLd .. | .gExtprod .. | .ks .. | .brRot .. | .bootNks .. | .boot .. => true
  | _ => false

/-! ### Which checks an instruction's rule lists -/

/-- R52: the validity predicates, RING_OK as its two parts, in the rule's order. -/
inductive ParamPred where
  | n | k | lwe | gad | ks | bkFit
deriving DecidableEq, Repr

/-- R52: the predicate on the current CSR values, products in exact integers. -/
def ParamPred.Holds (s : State) : ParamPred → Prop
  | .n => degreeOk s.csr.n.toNat
  | .k => rankOk s.csr.k.toNat
  | .lwe => 1 ≤ s.csr.lweN.toNat ∧ s.csr.lweN.toNat ≤ 4096
  | .gad => 1 ≤ s.csr.bkL.toNat ∧ 1 ≤ s.csr.bkBgbit.toNat ∧ s.csr.bkL.toNat * s.csr.bkBgbit.toNat ≤ 32
  | .ks => 1 ≤ s.csr.ksT.toNat ∧ 1 ≤ s.csr.ksBasebit.toNat ∧ s.csr.ksT.toNat * s.csr.ksBasebit.toNat ≤ 31
  | .bkFit => s.csr.lweN.toNat ≤ s.params.bkSlots

/-- R52: the lowest-numbered CSR a predicate names (log 8). -/
def ParamPred.csrNumber : ParamPred → Word
  | .n => 0x000
  | .k => 0x001
  | .lwe => 0x002
  | .gad => 0x003
  | .ks => 0x005
  | .bkFit => 0x002

/-- The predicates an instruction's rule checks, in R52's order (log 9). -/
def neededParams : Instr → List ParamPred
  | .pClr .. | .pAdd .. | .pSub .. | .pAddmulz .. | .pMulxai .. | .pMulxaim1 .. | .pMulfft .. | .pLd ..
  | .pSt .. | .fClr .. | .fFwdi .. | .fFwdt .. | .fInv .. | .fMuladd .. | .fMono .. => [.n]
  | .lEnc .. | .lDec .. | .lPhase .. | .lTriv .. | .lLd .. | .keyLdl .. => [.lwe]
  | .lEncX .. | .lDecX .. | .lPhaseX .. | .lTrivX .. | .lLdX .. | .rEnc0 .. | .rEnc .. | .rPhase .. | .rTriv ..
  | .rAdd .. | .rSub .. | .rAddmulr .. | .rMulxaim1 .. | .rExtract .. | .rLd .. | .rSt .. | .keyLdr .. => [.n, .k]
  | .gDecomp .. => [.n, .gad]
  | .gEnc .. | .gLd .. | .gExtprod .. => [.n, .k, .gad]
  | .ks .. => [.n, .k, .lwe, .ks]
  | .brRot .. | .bootNks .. => [.n, .k, .lwe, .gad, .bkFit]
  | .boot .. => [.n, .k, .lwe, .gad, .ks, .bkFit]
  | _ => []

/-- R522: a register an instruction reads, by file and number. -/
inductive RegOperand where
  | s (i : SIdx)
  | p (i : PIdx)
  | f (i : FIdx)
  | l (i : LIdx)
  | r (i : RIdx)
deriving DecidableEq, Repr

/-- R31: the register's valid bit is set; S0 is always valid (R32). -/
def RegOperand.Readable (s : State) : RegOperand → Prop
  | .s i => s.getS i ≠ none
  | .p i => s.pRegs[i] ≠ none
  | .f i => s.fRegs[i] ≠ none
  | .l i => s.lRegs[i] ≠ none
  | .r i => s.rRegs[i] ≠ none

/-- R522: the word UNINIT and PARAM_MISMATCH record: the file's code in bits 31:16, the number below. -/
def RegOperand.info : RegOperand → Word
  | .s i => BitVec.ofNat 32 i.val
  | .p i => BitVec.ofNat 32 (0x10000 + i.val)
  | .f i => BitVec.ofNat 32 (0x20000 + i.val)
  | .l i => BitVec.ofNat 32 (0x30000 + i.val)
  | .r i => BitVec.ofNat 32 (0x40000 + i.val)

/-- The registers an instruction's rule reads, in field order A, B, D (R530 item 6). -/
def readOperands : Instr → List RegOperand
  | .nop | .halt | .csrr _ _ | .sLi _ _ | .jmp _ | .jal _ _ | .pClr _ | .fClr _ | .rEnc0 _ => []
  | .csrw a _ | .sAddi _ a _ | .sLw _ a _ | .jr a | .gauss _ a | .pLd _ a _ | .fMono _ a | .lEnc _ a | .lEncX _ a
  | .lTriv _ a | .lTrivX _ a | .lLd _ a _ | .lLdX _ a _ | .keyLdl a _ | .rLd _ a _ | .keyLdr a _ => [.s a]
  | .sAdd _ a b | .sSub _ a b | .sMul _ a b | .sAnd _ a b | .sSll _ a b | .sSrl _ a b | .beq a b _ | .bne a b _
  | .blt a b _ | .bltu a b _ | .mswF _ a b | .mswT _ a b | .aphase _ a b | .gEnc a b => [.s a, .s b]
  | .sSw d a _ | .gLd d a _ => [.s a, .s d]
  | .pAdd _ a b | .pSub _ a b | .pMulfft _ a b => [.p a, .p b]
  | .pAddmulz d a b => [.p a, .s b, .p d]
  | .pMulxai _ a b | .pMulxaim1 _ a b => [.p a, .s b]
  | .pSt d a _ => [.s a, .p d]
  | .fFwdi _ a | .fFwdt _ a | .rEnc _ a | .rTriv _ a | .gDecomp _ a => [.p a]
  | .fInv _ a => [.f a]
  | .fMuladd d a b => [.f a, .f b, .f d]
  | .lDec _ a b | .lDecX _ a b | .brRot _ a b | .bootNks _ a b | .boot _ a b => [.l a, .s b]
  | .lPhase _ a | .lPhaseX _ a | .lNeg _ a | .lCopy _ a | .ks _ a => [.l a]
  | .lAdd d a | .lSub d a => [.l a, .l d]
  | .lAddmul d a b | .lSubmul d a b => [.l a, .s b, .l d]
  | .lSt d a _ => [.s a, .l d]
  | .rPhase _ a => [.r a]
  | .rAdd d a | .rSub d a => [.r a, .r d]
  | .rAddmulr d a b => [.p a, .r b, .r d]
  | .rMulxaim1 _ a b | .rExtract _ a b | .gExtprod _ a b => [.r a, .s b]
  | .rSt d a _ => [.s a, .r d]

/-- The dimension an instruction's rule asks of its L operands: LWE_N, k·N, or the source's own (R351);
`none` where it asks none. -/
def wantedDim (i : Instr) (s : State) : Option Nat :=
  match i with
  | .lDec .. | .lPhase .. | .brRot .. | .bootNks .. | .boot .. => some s.csr.lweN.toNat
  | .lDecX .. | .lPhaseX .. | .ks .. => some (s.csr.k.toNat * s.csr.n.toNat)
  | .lAdd _ a | .lSub _ a | .lAddmul _ a _ | .lSubmul _ a _ => s.lRegs[a].map fun x => x.dim
  | _ => none

/-- R34, R35, R37, R351: the tags of a register are those its instruction asks for. -/
def RegOperand.Fits (i : Instr) (s : State) : RegOperand → Prop
  | .s _ => True
  | .p j => ∀ x, s.pRegs[j] = some x → x.deg = s.csr.n.toNat
  | .f j => ∀ x, s.fRegs[j] = some x → x.deg = s.csr.n.toNat
  | .l j => ∀ x d, s.lRegs[j] = some x → wantedDim i s = some d → x.dim = d
  | .r j => ∀ x, s.rRegs[j] = some x → x.deg = s.csr.n.toNat ∧ x.k = s.csr.k.toNat

/-- R361, R362: these check the key's valid bit before the sample's dimension. -/
def keyBeforeTags : Instr → Bool
  | .lDec .. | .lDecX .. | .lPhase .. | .lPhaseX .. => true
  | _ => false

/-- R480: the instructions that need every slot below LWE_N. -/
def usesAllSlots : Instr → Bool
  | .brRot .. | .bootNks .. | .boot .. => true
  | _ => false

/-- R108, R104: the address and the number of bytes of the DMEM run an instruction checks (R110 to R115;
for KS and BOOT the whole key-switching key, R112). -/
def checkedSpan (i : Instr) (s : State) : Option (Word × Nat) :=
  let n := s.csr.n.toNat
  let k := s.csr.k.toNat
  let dim := s.csr.lweN.toNat
  let at' (a : SIdx) (imm : Word) (bytes : Nat) := (s.getS a).map fun v => (v + imm, bytes)
  match i with
  | .sLw _ a imm | .sSw _ a imm => at' a imm 4
  | .pLd _ a imm | .pSt _ a imm => at' a imm (4 * n)
  | .lLd _ a imm => at' a imm (4 * dim + 12)
  | .lLdX _ a imm => at' a imm (4 * (k * n) + 12)
  | .lSt d a imm => s.lRegs[d].bind fun x => at' a imm (4 * x.dim + 12)
  | .keyLdl a imm => at' a imm (4 * dim)
  | .keyLdr a imm => at' a imm (4 * (k * n))
  | .rLd _ a imm | .rSt _ a imm => at' a imm (4 * (k + 1) * n + 8)
  | .gLd _ a imm => at' a imm ((k + 1) * s.csr.bkL.toNat * (4 * (k + 1) * n + 8))
  | .ks .. | .boot .. =>
    some (s.csr.kskBase, k * n * s.csr.ksT.toNat * 2 ^ s.csr.ksBasebit.toNat * (4 * dim + 12))
  | _ => none

/-- Everything an instruction's rule checks of parameters and registers holds: its predicates, the valid
bits and the tags of what it reads. -/
structure OperandsOk (i : Instr) (s : State) : Prop where
  params : ∀ p ∈ neededParams i, p.Holds s
  readable : ∀ o ∈ readOperands i, o.Readable s
  tags : ∀ o ∈ readOperands i, o.Fits i s

/-- R105, R106: a transfer of `bytes` bytes at `ea` passes both checks. -/
def State.spanOk (s : State) (ea : Word) (bytes : Nat) : Prop :=
  ea.toNat % 4 = 0 ∧ ea.toNat + bytes ≤ s.params.dmemSize

/-- R480 item 4: every slot the blind rotation may use is valid and fits. -/
def State.bkReady (s : State) : Prop := ∀ i, i < s.lweN → ∃ g, s.getBk i = some g ∧ bkFits s g = true

/-- R465 items 6 and 7: the key-switching key lies in DMEM. -/
def State.kskReady (s : State) : Prop := s.spanOk s.csr.kskBase (kskBytes s.extN s.lweN s.ksT s.ksBits)

/-- `t` differs from `s` only in what instruction `i` writes by its rule, in pc, and in the number of draws
made. -/
structure Frame (i : Instr) (s t : State) : Prop where
  params : t.params = s.params
  sRegs : ∀ j : SIdx, destS i ≠ some j → t.sRegs[j] = s.sRegs[j]
  pRegs : ∀ j : PIdx, destP i s j = false → t.pRegs[j] = s.pRegs[j]
  fRegs : ∀ j : FIdx, destF i ≠ some j → t.fRegs[j] = s.fRegs[j]
  lRegs : ∀ j : LIdx, destL i ≠ some j → t.lRegs[j] = s.lRegs[j]
  rRegs : ∀ j : RIdx, destR i ≠ some j → t.rRegs[j] = s.rRegs[j]
  bk : ∀ slot, destSlot i s ≠ some slot → t.getBk slot = s.getBk slot
  keyL : writesKeyL i = false → t.keyL = s.keyL
  keyR : writesKeyR i = false → t.keyR = s.keyR
  csr : destCsr i = none → t.csr = s.csr
  csrOne : ∀ c, destCsr i = some c → ∃ v, t.csr = s.csr.put c v
  runState : i ≠ .halt → t.runState = s.runState ∧ t.irqPending = s.irqPending
  fault : t.cause = s.cause ∧ t.faultPc = s.faultPc ∧ t.faultInfo = s.faultInfo
  host : t.startPc = s.startPc ∧ t.irqEn = s.irqEn ∧ t.hostIn = s.hostIn ∧ t.hostOut = s.hostOut
  imem : t.imem = s.imem
  dmem : ∀ addr, (∀ start len, storedBytes i s = some (start, len) → addr < start ∨ start + len ≤ addr) →
    memByte t.dmem addr = memByte s.dmem addr
  draws : s.drawCtr ≤ t.drawCtr

/-- What taking a fault leaves: R523's five registers, and nothing else (the number of draws made aside). -/
structure FaultFrame (s t : State) : Prop where
  runState : t.runState = .faulted
  cause : t.cause ≠ .none
  faultPc : t.faultPc = s.pc
  pending : t.irqPending = true
  rest : { t with runState := s.runState, cause := s.cause, faultPc := s.faultPc, faultInfo := s.faultInfo,
                  irqPending := s.irqPending, drawCtr := s.drawCtr } = s

end Sys2Proof.Machine
end

