-- ==== Sys2Proof/Certificates/Slice0/Obligations.lean ====
section
/-! DEFINITION. Certificates/Slice0/Obligations.lean: the statements for the provers, one definition each.
Every statement about a next state writes that state out, so it is the completion statement of the
instructions it names; what no statement may change is said once for all instructions by
`InstructionsWriteOnlyTheirDestinations`. Draws appear as values of which only their bound is known (R16). -/

open Sys2Proof Sys2Proof.Machine
open scoped BigOperators

/-! ## Words and the instruction cycle -/

/-- R151 and more words written out from R140 to R150: what they decode to, and their bytes in IMEM. -/
def Obligations.SpelledWordsDecode : Prop :=
  decode 0x0000000000051334 = .ok (.pMulxai 3 1 5) ∧
  bytesOfWord 0x0000000000051334 = [0x34, 0x13, 0x05, 0x00, 0x00, 0x00, 0x00, 0x00] ∧
  decode 0xFFFFFFF800001111 = .ok (.sAddi 1 1 0xFFFFFFF8) ∧
  decode 0x0000000000000001 = .ok .nop ∧
  decode 0x0000000200001004 = .ok (.csrw 1 2) ∧
  decode 0x0000000001021352 = .error (.reservedBits 0x52) ∧
  decode 0x0000000100000001 = .error (.reservedBits 0x01) ∧
  decode 0x0000000001001352 = .ok (.lPhaseX 3 1) ∧
  decode 0x000000000002007E = .ok (.boot 0 0 2) ∧
  decode 0x0000000000000000 = .error (.unlistedOpcode 0)

/-- R200 items 3 and 5 (the model's turn of the host: log 5): with no host access first, an aligned pc in
range and a written word that decodes to `i`, the step is `exec i` of the state itself. -/
def Obligations.StepRunsTheDecodedInstruction : Prop :=
  ∀ (s : State) (lo hi : Word) (i : Instr), s.runState = .running → s.pc.toNat % 8 = 0 →
    s.pc.toNat + 8 ≤ s.params.imemSize → memWord s.imem s.pc.toNat = some lo →
    memWord s.imem (s.pc.toNat + 4) = some hi → decode (hi ++ lo) = .ok i →
    (s.hostIn = [] → step s = exec i s) ∧
    (∀ rest, s.hostIn = .quiet :: rest → step s = exec i { s with hostIn := rest })

/-- R200 items 1, 2 and 4: the three faults of the cycle itself, in this order. R538: in IDLE, HALTED and
FAULTED the sequencer's turn changes nothing (log 10). -/
def Obligations.CycleFaultsAndWaitStates : Prop :=
  (∀ s : State, s.runState = .running → s.hostIn = [] →
      (s.pc.toNat % 8 ≠ 0 → step s = .next (s.takeFault ⟨.fetchMisaligned, s.pc⟩)) ∧
      (s.pc.toNat % 8 = 0 → s.params.imemSize < s.pc.toNat + 8 →
        step s = .next (s.takeFault ⟨.fetchOob, s.pc⟩)) ∧
      (∀ (lo hi : Word) (r : Reject), s.pc.toNat % 8 = 0 → s.pc.toNat + 8 ≤ s.params.imemSize →
        memWord s.imem s.pc.toNat = some lo → memWord s.imem (s.pc.toNat + 4) = some hi →
        decode (hi ++ lo) = .error r → step s = .next (s.takeFault ⟨.illegalInstr, lo⟩))) ∧
  (∀ s : State, s.runState ≠ .running → (s.hostIn = [] → step s = .next s) ∧
      (∀ rest, s.hostIn = .quiet :: rest → step s = .next { s with hostIn := rest }))

/-- R148: a word is an instruction exactly when it matches a row of the opcode map, and then the row's. -/
def Obligations.WordsAreRowsOrIllegal : Prop :=
  ∀ w : InstrWord,
    ((∃ i, decode w = .ok i) ↔ ∃ r ∈ opcodeTable, r.matches w = true) ∧
    (∀ i, decode w = .ok i → ∀ r ∈ opcodeTable, r.matches w = true → r.mnemonic = i.mnemonic)

/-- Decoding the word of a well-formed instruction gives it back, every operand included. A word that
decodes is the word of what it decodes to, and that is well formed. -/
def Obligations.EncodingRoundTrip : Prop :=
  (∀ i : Instr, i.wf = true → decode (encode i) = .ok i) ∧
  (∀ (w : InstrWord) (i : Instr), decode w = .ok i → i.wf = true ∧ encode i = w)

/-- R591, R532: every step answers a next state: no fault, no refusal, no stuck state. The model's choice in
two clauses: that a fault of the CORE is a next state (log 17, DEDUCED), and that a host's turn and a wait
state's turn are steps (logs 5 and 10, DESIGN CHOICE). -/
def Obligations.EveryStepAnswersNext : Prop :=
  (∀ s : State, ∃ t, step s = .next t) ∧ (∀ (i : Instr) (s : State), ∃ t, exec i s = .next t)

/-! ## System, scalar and control instructions -/

/-- R210, R211. R212, R213: a listed number is read, a read-write one is written whole; any other faults. -/
def Obligations.SystemAndCsrResults : Prop :=
  (∀ s : State, exec .nop s = .next s.advance ∧
      exec .halt s = .next { s with runState := .halted, irqPending := true }) ∧
  (∀ (s : State) (r : SIdx) (c : Nat),
      (∀ v, csrRead s c = some v → exec (.csrr r c) s = .next (s.setS r v).advance) ∧
      (csrRead s c = none → exec (.csrr r c) s = .next (s.takeFault ⟨.illegalCsr, BitVec.ofNat 32 c⟩)) ∧
      (c < 10 → ∀ v, s.getS r = some v → exec (.csrw r c) s = .next (s.setCsr c v).advance ∧
        csrRead (s.setCsr c v) c = some v) ∧
      (c < 10 → s.getS r = none → exec (.csrw r c) s = .next (s.takeFault (.uninit .s r.val))) ∧
      (10 ≤ c → exec (.csrw r c) s = .next (s.takeFault ⟨.illegalCsr, BitVec.ofNat 32 c⟩)))

/-- R50, R51, R53, R54: the CSR space. The listed numbers and no others, the parameter CSRs, the identity CSRs,
every derived CSR of a legal configuration, and 0 where its predicate is false. -/
def Obligations.DerivedCsrValues : Prop :=
  ∀ s : State,
    (∀ c, csrRead s c = none ↔ c ∉ [0x000, 0x001, 0x002, 0x003, 0x004, 0x005, 0x006, 0x007, 0x008, 0x009,
      0x010, 0x011, 0x012, 0x013, 0x014, 0x015, 0x016, 0x017, 0x018,
      0x0F0, 0x0F1, 0x0F2, 0x0F3, 0x0F4, 0x0F5, 0x0F6]) ∧
    (csrRead s 0x000 = some s.csr.n ∧ csrRead s 0x001 = some s.csr.k ∧ csrRead s 0x002 = some s.csr.lweN ∧
      csrRead s 0x003 = some s.csr.bkL ∧ csrRead s 0x004 = some s.csr.bkBgbit ∧
      csrRead s 0x005 = some s.csr.ksT ∧ csrRead s 0x006 = some s.csr.ksBasebit ∧
      csrRead s 0x007 = some s.csr.alphaLo ∧ csrRead s 0x008 = some s.csr.alphaHi ∧
      csrRead s 0x009 = some s.csr.kskBase) ∧
    (csrRead s 0x0F0 = some 0x54464845 ∧ csrRead s 0x0F1 = some 7 ∧ csrRead s 0x0F2 = some 2048 ∧
      csrRead s 0x0F3 = some 4096 ∧ csrRead s 0x0F4 = some (BitVec.ofNat 32 s.params.bkSlots) ∧
      csrRead s 0x0F5 = some (BitVec.ofNat 32 s.params.dmemSize) ∧
      csrRead s 0x0F6 = some (BitVec.ofNat 32 s.params.imemSize)) ∧
    (s.gadOk = true →
      csrRead s 0x010 = some (BitVec.ofNat 32 (2 ^ s.gadBits)) ∧
      csrRead s 0x011 = some (BitVec.ofNat 32 (2 ^ (s.gadBits - 1))) ∧
      csrRead s 0x012 = some (BitVec.ofNat 32 (2 ^ s.gadBits - 1)) ∧
      csrRead s 0x013 = some (BitVec.ofNat 32
        (2 ^ (s.gadBits - 1) * ∑ j ∈ Finset.range s.gadL, 2 ^ (32 - (j + 1) * s.gadBits)))) ∧
    (s.gadOk = false → csrRead s 0x010 = some 0 ∧ csrRead s 0x011 = some 0 ∧ csrRead s 0x012 = some 0 ∧
      csrRead s 0x013 = some 0) ∧
    (csrRead s 0x014 = some (if s.kOk && s.gadOk then BitVec.ofNat 32 ((s.rankK + 1) * s.gadL) else 0)) ∧
    (csrRead s 0x015 = some (if s.ksOk then BitVec.ofNat 32 (2 ^ (31 - s.ksT * s.ksBits)) else 0)) ∧
    (csrRead s 0x016 = some (if s.ringOk then BitVec.ofNat 32 (s.rankK * s.ringN) else 0)) ∧
    (∃ v, csrRead s 0x017 = some v ∧ v.getLsbD 0 = s.nOk ∧ v.getLsbD 1 = s.kOk ∧ v.getLsbD 2 = s.lweOk ∧
      v.getLsbD 3 = s.gadOk ∧ v.getLsbD 4 = s.ksOk ∧ v.getLsbD 5 = s.bkFit ∧ v.toNat < 64) ∧
    (∃ v, csrRead s 0x018 = some v ∧ v.getLsbD 0 = s.keyL.isSome ∧ v.getLsbD 1 = s.keyR.isSome ∧ v.toNat < 4)

/-- R202, R32: a write to S0 is discarded and S0 stays 0; any other write stores the word and sets the
valid bit. -/
def Obligations.ScalarWriteRule : Prop :=
  ∀ (s : State) (d j : SIdx) (v : Word),
    (d = 0 → s.setS d v = s) ∧ (s.setS d v).getS 0 = some 0 ∧
    (d ≠ 0 → (s.setS d v).getS d = some v) ∧ (j ≠ d → (s.setS d v).getS j = s.getS j)

/-- R214 to R221, operands readable: S.LI, S.ADDI, S.ADD, S.SUB, S.MUL, S.AND, S.SLL, S.SRL. -/
def Obligations.ScalarArithmeticResults : Prop :=
  ∀ (s : State) (d a b : SIdx) (imm x y : Word),
    exec (.sLi d imm) s = .next (s.setS d imm).advance ∧
    (s.getS a = some x → exec (.sAddi d a imm) s = .next (s.setS d (x + imm)).advance) ∧
    (s.getS a = some x → s.getS b = some y →
      exec (.sAdd d a b) s = .next (s.setS d (x + y)).advance ∧
      exec (.sSub d a b) s = .next (s.setS d (x - y)).advance ∧
      exec (.sMul d a b) s = .next (s.setS d (BitVec.ofNat 32 (x.toNat * y.toNat))).advance ∧
      exec (.sAnd d a b) s = .next (s.setS d (x &&& y)).advance ∧
      exec (.sSll d a b) s = .next (s.setS d (if 32 ≤ y.toNat then 0 else x <<< y.toNat)).advance ∧
      exec (.sSrl d a b) s = .next (s.setS d (if 32 ≤ y.toNat then 0 else x >>> y.toNat)).advance)

/-- R222, R223, R107, R108: S.LW reads the word, or a draw where it was never written; S.SW stores four
bytes, little-endian, and they read back. -/
def Obligations.ScalarLoadStoreResults : Prop :=
  ∀ (s : State) (d a : SIdx) (imm base : Word), s.getS a = some base → s.spanOk (base + imm) 4 →
    (∀ v, memWord s.dmem (base + imm).toNat = some v →
      exec (.sLw d a imm) s = .next (s.setS d v).advance) ∧
    (memWord s.dmem (base + imm).toNat = none →
      ∃ v, exec (.sLw d a imm) s = .next ((s.bump 1).setS d v).advance) ∧
    (∀ v, s.getS d = some v →
      exec (.sSw d a imm) s = .next { s with dmem := memSetWord s.dmem (base + imm).toNat v, pc := s.pc + 8 } ∧
      memWord (memSetWord s.dmem (base + imm).toNat v) (base + imm).toNat = some v)

/-- R224 to R227: each branch goes to pc + imm32 when its condition holds and to pc + 8 otherwise. R228 to
R230: JMP, JAL (the link is the next address, and d = 0 discards it) and JR. -/
def Obligations.BranchAndJumpResults : Prop :=
  (∀ (s : State) (a b : SIdx) (imm x y : Word), s.getS a = some x → s.getS b = some y →
      exec (.beq a b imm) s = .next { s with pc := if x = y then s.pc + imm else s.pc + 8 } ∧
      exec (.bne a b imm) s = .next { s with pc := if x = y then s.pc + 8 else s.pc + imm } ∧
      exec (.blt a b imm) s = .next { s with pc := if x.toInt < y.toInt then s.pc + imm else s.pc + 8 } ∧
      exec (.bltu a b imm) s = .next { s with pc := if x.toNat < y.toNat then s.pc + imm else s.pc + 8 }) ∧
  (∀ (s : State) (d a : SIdx) (imm x : Word),
      exec (.jmp imm) s = .next { s with pc := s.pc + imm } ∧
      exec (.jal d imm) s = .next { s.setS d (s.pc + 8) with pc := s.pc + imm } ∧
      (s.getS a = some x → exec (.jr a) s = .next { s with pc := x }))

/-! ## Torus instructions -/

/-- R261 to R263, R265 to R267: MSW.F, MSW.T and APHASE; a zero modulus, and a μ of M or more, fault. R264,
R268: GAUSS adds one draw within its bound. -/
def Obligations.TorusInstructionResults : Prop :=
  (∀ (s : State) (d a b : SIdx) (x m : Word), s.getS a = some x → s.getS b = some m →
      (m ≠ 0 →
        exec (.mswF d a b) s = .next (s.setS d (BitVec.ofNat 32
          ((x.toNat * m.toNat + 2 ^ 31) / 2 ^ 32 % m.toNat))).advance ∧
        (x.toNat < m.toNat → exec (.mswT d a b) s = .next (s.setS d (BitVec.ofNat 32
          ((2 * x.toNat * 2 ^ 32 + m.toNat) / (2 * m.toNat)))).advance) ∧
        (m.toNat ≤ x.toNat → exec (.mswT d a b) s = .next (s.takeFault ⟨.badOperand, x⟩)) ∧
        exec (.aphase d a b) s = .next (s.setS d (BitVec.ofNat 32
          (mstot (msfrom x m.toNat) m.toNat))).advance) ∧
      (m = 0 → exec (.mswF d a b) s = .next (s.takeFault ⟨.badOperand, 0⟩) ∧
        exec (.mswT d a b) s = .next (s.takeFault ⟨.badOperand, 0⟩) ∧
        exec (.aphase d a b) s = .next (s.takeFault ⟨.badOperand, 0⟩))) ∧
  (∀ (s : State) (d a : SIdx) (x : Word), s.getS a = some x →
      ∃ e : Int, (∀ bound, Config.gaussBound s.alpha = some bound → e.natAbs ≤ bound) ∧
        exec (.gauss d a) s = .next ((s.setS d (x + u32 e)).bump 1).advance)

/-- R261, R262 (derived): the modulus switches fit a word and undo each other for every modulus. -/
def Obligations.ModulusSwitchRoundTrip : Prop :=
  ∀ m mu : Nat, 1 ≤ m → m < 2 ^ 32 → mu < m →
    mstot mu m < 2 ^ 32 ∧ msfrom (BitVec.ofNat 32 (mstot mu m)) m = mu ∧ (∀ x : Word, msfrom x m < m)

/-! ## Polynomials -/

/-- R290 to R293: P.CLR, P.ADD, P.SUB and P.ADDMULZ, coefficient by coefficient. R294, R295: monomial
products, and the fault of an exponent of 2N or more. -/
def Obligations.PolynomialRingResults : Prop :=
  (∀ (s : State) (d a b : PIdx) (q : SIdx) (x y z : PReg) (v : Word), s.nOk = true →
      exec (.pClr d) s = .next (s.setP d (List.replicate s.ringN 0)).advance ∧
      (s.pRegs[a] = some x → s.pRegs[b] = some y → x.deg = s.ringN → y.deg = s.ringN →
        exec (.pAdd d a b) s = .next (s.setP d (vec s.ringN fun i => coeff x.c i + coeff y.c i)).advance ∧
        exec (.pSub d a b) s = .next (s.setP d (vec s.ringN fun i => coeff x.c i - coeff y.c i)).advance) ∧
      (s.pRegs[a] = some x → s.getS q = some v → s.pRegs[d] = some z → x.deg = s.ringN → z.deg = s.ringN →
        exec (.pAddmulz d a q) s = .next (s.setP d (vec s.ringN fun i => coeff z.c i + v * coeff x.c i)).advance)) ∧
  (∀ (s : State) (d a : PIdx) (b : SIdx) (x : PReg) (e : Word), s.nOk = true → s.pRegs[a] = some x →
      s.getS b = some e → x.deg = s.ringN →
      (e.toNat < 2 * s.ringN →
        exec (.pMulxai d a b) s = .next (s.setP d (rot s.ringN e.toNat x.c)).advance ∧
        exec (.pMulxaim1 d a b) s = .next (s.setP d
          (vec s.ringN fun i => coeff (rot s.ringN e.toNat x.c) i - coeff x.c i)).advance) ∧
      (2 * s.ringN ≤ e.toNat →
        exec (.pMulxai d a b) s = .next (s.takeFault ⟨.badOperand, e⟩) ∧
        exec (.pMulxaim1 d a b) s = .next (s.takeFault ⟨.badOperand, e⟩)))

/-- R282: the rotation, that it is the product with the monomial X^a in the ring, and its three properties. -/
def Obligations.RotationIsMonomialProduct : Prop :=
  ∀ (n a b : Nat) (src : List Word), src.length = n → a < 2 * n → b < 2 * n →
    (∀ i, i < n → coeff (rot n a src) i =
      if a < n then (if a ≤ i then coeff src (i - a) else -coeff src (i + n - a))
      else (if a - n ≤ i then -coeff src (i - (a - n)) else coeff src (i + n - (a - n)))) ∧
    (∀ i, i < n → coeff (rot n a src) i = u32 (nprodAt n (monomial n a) (ints n src) i)) ∧
    (rot n a src).length = n ∧
    rot n 0 src = src ∧
    rot n n src = src.map (fun x => -x) ∧
    rot n a (rot n b src) = rot n ((a + b) % (2 * n)) src

/-- R296: P.MULFFT is the exact negacyclic product with an error within β on each coefficient. -/
def Obligations.PolynomialFftProductResult : Prop :=
  ∀ (s : State) (d a b : PIdx) (x y : PReg), s.nOk = true → s.pRegs[a] = some x → s.pRegs[b] = some y →
    x.deg = s.ringN → y.deg = s.ringN →
    ∃ e : Nat → Int,
      (∀ i, (sbits (ints s.ringN x.c) ≤ 10 → (e i).natAbs ≤ 1) ∧
        (10 < sbits (ints s.ringN x.c) →
          ∀ bound, Config.fftWideErr (sbits (ints s.ringN x.c)) s.ringN = some bound → (e i).natAbs ≤ bound)) ∧
      exec (.pMulfft d a b) s = .next ((s.setP d (vec s.ringN fun i =>
        u32 (nprodAt s.ringN (ints s.ringN x.c) (ints s.ringN y.c) i + e i))).bump s.ringN).advance

/-- R297, R298, R110: P.LD reads N words (a never-written one is a draw); P.ST stores them, and what was
stored loads back. -/
def Obligations.PolynomialLoadStoreResults : Prop :=
  ∀ (s : State) (d : PIdx) (a : SIdx) (imm base : Word), s.nOk = true → s.getS a = some base →
    s.spanOk (base + imm) (4 * s.ringN) →
    (∃ (c : List Word) (draws : Nat), c.length = s.ringN ∧
      (∀ i, i < s.ringN → ∀ v, memWord s.dmem ((base + imm).toNat + 4 * i) = some v → coeff c i = v) ∧
      exec (.pLd d a imm) s = .next ((s.bump draws).setP d c).advance) ∧
    (∀ x, s.pRegs[d] = some x → x.deg = s.ringN → x.c.length = x.deg →
      exec (.pSt d a imm) s = .next (s.store (base + imm).toNat x.c).advance ∧
      (∀ i, i < s.ringN →
        memWord (s.store (base + imm).toNat x.c).dmem ((base + imm).toNat + 4 * i) = some (coeff x.c i)))

/-! ## The FFT engine -/

/-- R323: the error bound of each class; `none` is no bound. R322, R333: F.INV reduces every coefficient
modulo 2^32, with an error within β of its class. -/
def Obligations.InverseTransformResult : Prop :=
  (∀ n : Nat, errBound n .z = some 0 ∧
      (∀ b, (b ≤ 20 → errBound n (.i b) = some 0) ∧ (20 < b → errBound n (.i b) = some 1)) ∧
      errBound n .t = some 1 ∧
      (∀ b, (b ≤ 10 → errBound n (.m b 1) = some 1) ∧ (10 < b → errBound n (.m b 1) = Config.fftWideErr b n)) ∧
      (∀ b c, 2 ≤ c → errBound n (.m b c) = Config.fftErrBound b c n) ∧
      errBound n .g = none) ∧
  (∀ (s : State) (d : PIdx) (a : FIdx) (x : FReg), s.nOk = true → s.fRegs[a] = some x → x.deg = s.ringN →
      ∃ e : Nat → Int, (∀ i bound, errBound s.ringN x.cls = some bound → (e i).natAbs ≤ bound) ∧
        exec (.fInv d a) s = .next ((s.setP d
          (vec s.ringN fun i => u32 (icoeff x.v i + e i))).bump s.ringN).advance)

/-- R330, R331, R332, R335: F.CLR, F.FWDI, F.FWDT and F.MONO, and the fault of an exponent of 2N or more. -/
def Obligations.FourierForwardResults : Prop :=
  ∀ (s : State) (d : FIdx) (a : PIdx) (b : SIdx) (x : PReg) (e : Word), s.nOk = true →
    exec (.fClr d) s = .next (s.setF d (List.replicate s.ringN 0) .z).advance ∧
    (s.pRegs[a] = some x → x.deg = s.ringN →
      exec (.fFwdi d a) s = .next (s.setF d (vec s.ringN fun i => (coeff x.c i).toInt)
        (.i (sbits (vec s.ringN fun i => (coeff x.c i).toInt)))).advance ∧
      exec (.fFwdt d a) s = .next (s.setF d (vec s.ringN fun i => (coeff x.c i).toInt) .t).advance) ∧
    (s.getS b = some e →
      (e.toNat < s.ringN → exec (.fMono d b) s = .next (s.setF d
        (vec s.ringN fun i => if i = e.toNat then 1 else 0) (.i 2)).advance) ∧
      (s.ringN ≤ e.toNat → e.toNat < 2 * s.ringN → exec (.fMono d b) s = .next (s.setF d
        (vec s.ringN fun i => if i = e.toNat - s.ringN then -1 else 0) (.i 2)).advance) ∧
      (2 * s.ringN ≤ e.toNat → exec (.fMono d b) s = .next (s.takeFault ⟨.badOperand, e⟩)))

/-- R334: F.MULADD adds the exact negacyclic product, and the class follows the rule. -/
def Obligations.FourierMulAddResult : Prop :=
  ∀ (s : State) (d a b : FIdx) (x y acc : FReg), s.nOk = true → s.fRegs[a] = some x → s.fRegs[b] = some y →
    s.fRegs[d] = some acc → x.deg = s.ringN → y.deg = s.ringN → acc.deg = s.ringN →
    exec (.fMuladd d a b) s = .next (s.setF d
      (vec s.ringN fun i => icoeff acc.v i + nprodAt s.ringN x.v y.v i)
      (mulAddClass acc.cls x.cls y.cls)).advance ∧
    (∀ b1, (x.cls = .i b1 ∧ y.cls = .t) ∨ (x.cls = .t ∧ y.cls = .i b1) →
      (acc.cls = .z → mulAddClass acc.cls x.cls y.cls = .m b1 1) ∧
      (∀ b0 c0, acc.cls = .m b0 c0 → mulAddClass acc.cls x.cls y.cls = .m (max b0 b1) (c0 + 1)) ∧
      (acc.cls ≠ .z → (∀ b0 c0, acc.cls ≠ .m b0 c0) → mulAddClass acc.cls x.cls y.cls = .g)) ∧
    ((∀ b1, ¬ ((x.cls = .i b1 ∧ y.cls = .t) ∨ (x.cls = .t ∧ y.cls = .i b1))) →
      mulAddClass acc.cls x.cls y.cls = .g)

/-- R323, R331, R333: integer polynomials of up to 20 bits come back exactly from F.FWDI and F.INV. -/
def Obligations.ForwardThenInverseIsExact : Prop :=
  ∀ (s t : State) (f : FIdx) (a d : PIdx) (x : PReg), s.nOk = true → s.pRegs[a] = some x → x.deg = s.ringN →
    x.c.length = s.ringN → (∀ i, -2 ^ 19 ≤ (coeff x.c i).toInt ∧ (coeff x.c i).toInt < 2 ^ 19) →
    exec (.fFwdi f a) s = .next t →
    exec (.fInv d f) t = .next ((t.setP d x.c).bump t.ringN).advance

/-! ## LWE -/

/-- R350, R360: L.ENC and L.ENC.X: uniform words, one Gaussian draw, var = α². -/
def Obligations.LweEncryptResults : Prop :=
  ∀ (s : State) (d : LIdx) (a : SIdx) (m : Word), s.getS a = some m →
    (∀ key, s.lweOk = true → s.keyL = some key → key.dim = s.lweN →
      ∃ (u : Nat → Word) (e : Int), (∀ bound, Config.gaussBound s.alpha = some bound → e.natAbs ≤ bound) ∧
        exec (.lEnc d a) s = .next ((s.setL d ⟨s.lweN, vec s.lweN u,
          dot s.lweN (vec s.lweN u) key.s + m + u32 e, f64mul s.alpha s.alpha⟩).bump (s.lweN + 1)).advance) ∧
    (∀ key, s.ringOk = true → s.keyR = some key → key.deg = s.ringN → key.k = s.rankK →
      ∃ (u : Nat → Word) (e : Int), (∀ bound, Config.gaussBound s.alpha = some bound → e.natAbs ≤ bound) ∧
        exec (.lEncX d a) s = .next ((s.setL d ⟨s.extN, vec s.extN u,
          dot s.extN (vec s.extN u) (extractedKey key) + m + u32 e,
          f64mul s.alpha s.alpha⟩).bump (s.extN + 1)).advance)

/-- R360, R362: an encryption's phase is the message plus the noise, and the noise is within its bound. -/
def Obligations.EncryptThenPhase : Prop :=
  ∀ (s t : State) (d : LIdx) (a r : SIdx) (m : Word) (key : KeyL), s.lweOk = true → s.getS a = some m →
    s.keyL = some key → key.dim = s.lweN → exec (.lEnc d a) s = .next t →
    ∃ e : Int, (∀ bound, Config.gaussBound s.alpha = some bound → e.natAbs ≤ bound) ∧
      exec (.lPhase r d) t = .next (t.setS r (m + u32 e)).advance

/-- R350, R361, R362: L.PHASE and L.DEC, with both keys; L.DEC faults on M = 0. -/
def Obligations.LweDecryptResults : Prop :=
  ∀ (s : State) (d : SIdx) (a : LIdx) (b : SIdx) (x : LReg) (m : Word), s.lRegs[a] = some x →
    (∀ key, s.lweOk = true → s.keyL = some key → key.dim = s.lweN → x.dim = s.lweN →
      exec (.lPhase d a) s = .next (s.setS d (x.b - dot x.dim x.a key.s)).advance ∧
      (s.getS b = some m → m ≠ 0 → exec (.lDec d a b) s
        = .next (s.setS d (approx (x.b - dot x.dim x.a key.s) m.toNat)).advance) ∧
      (s.getS b = some 0 → exec (.lDec d a b) s = .next (s.takeFault ⟨.badOperand, 0⟩))) ∧
    (∀ key, s.ringOk = true → s.keyR = some key → key.deg = s.ringN → key.k = s.rankK → x.dim = s.extN →
      exec (.lPhaseX d a) s = .next (s.setS d (x.b - dot x.dim x.a (extractedKey key))).advance ∧
      (s.getS b = some m → m ≠ 0 → exec (.lDecX d a b) s
        = .next (s.setS d (approx (x.b - dot x.dim x.a (extractedKey key)) m.toNat)).advance) ∧
      (s.getS b = some 0 → exec (.lDecX d a b) s = .next (s.takeFault ⟨.badOperand, 0⟩)))

/-- R363 to R369: L.TRIV, L.TRIV.X, L.ADD, L.SUB, L.ADDMUL, L.SUBMUL, L.NEG and L.COPY. -/
def Obligations.LweLinearResults : Prop :=
  ∀ (s : State) (d a : LIdx) (b : SIdx) (x acc : LReg) (p : Word),
    (s.getS b = some p → s.lweOk = true → exec (.lTriv d b) s
      = .next (s.setL d ⟨s.lweN, List.replicate s.lweN 0, p, 0⟩).advance) ∧
    (s.getS b = some p → s.ringOk = true → exec (.lTrivX d b) s
      = .next (s.setL d ⟨s.extN, List.replicate s.extN 0, p, 0⟩).advance) ∧
    (s.lRegs[a] = some x →
      exec (.lNeg d a) s = .next (s.setL d ⟨x.dim, vec x.dim fun i => -coeff x.a i, -x.b, x.var⟩).advance ∧
      exec (.lCopy d a) s = .next (s.setL d x).advance) ∧
    (s.lRegs[a] = some x → s.lRegs[d] = some acc → acc.dim = x.dim →
      exec (.lAdd d a) s = .next (s.setL d ⟨acc.dim, vec acc.dim fun i => coeff acc.a i + coeff x.a i,
        acc.b + x.b, f64add acc.var x.var⟩).advance ∧
      exec (.lSub d a) s = .next (s.setL d ⟨acc.dim, vec acc.dim fun i => coeff acc.a i - coeff x.a i,
        acc.b - x.b, f64add acc.var x.var⟩).advance ∧
      (s.getS b = some p →
        exec (.lAddmul d a b) s = .next (s.setL d ⟨acc.dim,
          vec acc.dim fun i => coeff acc.a i + p * coeff x.a i, acc.b + p * x.b,
          f64add acc.var (f64mul (f64mul (f64fromInt p.toInt) (f64fromInt p.toInt)) x.var)⟩).advance ∧
        exec (.lSubmul d a b) s = .next (s.setL d ⟨acc.dim,
          vec acc.dim fun i => coeff acc.a i - p * coeff x.a i, acc.b - p * x.b,
          f64add acc.var (f64mul (f64mul (f64fromInt p.toInt) (f64fromInt p.toInt)) x.var)⟩).advance))

/-- R364 to R368 (derived): under any key, phases combine as the samples do. -/
def Obligations.LwePhaseIsLinear : Prop :=
  ∀ (key : List Bool) (acc x : LReg) (p : Word), acc.dim = x.dim →
    lwePhaseOf (lweAdd acc x) key = lwePhaseOf acc key + lwePhaseOf x key ∧
    lwePhaseOf (lweSub acc x) key = lwePhaseOf acc key - lwePhaseOf x key ∧
    lwePhaseOf (lweAddMul p acc x) key = lwePhaseOf acc key + p * lwePhaseOf x key ∧
    lwePhaseOf (lweSubMul p acc x) key = lwePhaseOf acc key - p * lwePhaseOf x key ∧
    lwePhaseOf (lweNeg x) key = -lwePhaseOf x key ∧
    (∀ d mu, lwePhaseOf (lweTrivial d mu) key = mu)

/-- R370, R371, R111: L.LD and L.LD.X read dim + 3 words (a never-written one is a draw); L.ST stores the
register's own image. -/
def Obligations.LweLoadStoreResults : Prop :=
  ∀ (s : State) (d : LIdx) (a : SIdx) (imm base : Word), s.getS a = some base →
    (s.lweOk = true → s.spanOk (base + imm) (4 * s.lweN + 12) →
      ∃ (w : List Word) (draws : Nat), w.length = s.lweN + 3 ∧
        (∀ i, i < s.lweN + 3 → ∀ v, memWord s.dmem ((base + imm).toNat + 4 * i) = some v → coeff w i = v) ∧
        exec (.lLd d a imm) s = .next ((s.bump draws).setL d ⟨s.lweN, vec s.lweN (coeff w), coeff w s.lweN,
          coeff w (s.lweN + 2) ++ coeff w (s.lweN + 1)⟩).advance) ∧
    (s.ringOk = true → s.spanOk (base + imm) (4 * s.extN + 12) →
      ∃ (w : List Word) (draws : Nat), w.length = s.extN + 3 ∧
        (∀ i, i < s.extN + 3 → ∀ v, memWord s.dmem ((base + imm).toNat + 4 * i) = some v → coeff w i = v) ∧
        exec (.lLdX d a imm) s = .next ((s.bump draws).setL d ⟨s.extN, vec s.extN (coeff w), coeff w s.extN,
          coeff w (s.extN + 2) ++ coeff w (s.extN + 1)⟩).advance) ∧
    (∀ x, s.lRegs[d] = some x → s.spanOk (base + imm) (4 * x.dim + 12) →
      exec (.lSt d a imm) s = .next (s.store (base + imm).toNat (vec x.dim (coeff x.a) ++
        [x.b, x.var.extractLsb' 0 32, x.var.extractLsb' 32 32])).advance)

/-- R370, R371: what L.ST stored, L.LD of the same address loads back, into any register. -/
def Obligations.LweStoreThenLoad : Prop :=
  ∀ (s t : State) (d e : LIdx) (a : SIdx) (imm base : Word) (x : LReg), s.lweOk = true →
    s.getS a = some base → s.lRegs[d] = some x → x.dim = s.lweN → x.a.length = x.dim →
    s.spanOk (base + imm) (4 * s.lweN + 12) → exec (.lSt d a imm) s = .next t →
    exec (.lLd e a imm) t = .next (t.setL e x).advance

/-- R372, R411, R115: KEY.LDL and KEY.LDR load zeros and ones, and fault on the first other word. -/
def Obligations.KeyLoadResults : Prop :=
  ∀ (s : State) (a : SIdx) (imm base : Word) (w : Nat → Word), s.getS a = some base →
    (s.lweOk = true → s.spanOk (base + imm) (4 * s.lweN) →
      (∀ i, i < s.lweN → memWord s.dmem ((base + imm).toNat + 4 * i) = some (w i)) →
      ((∀ i, i < s.lweN → w i = 0 ∨ w i = 1) →
        exec (.keyLdl a imm) s = .next (s.setKeyL (vec s.lweN fun i => w i == 1)).advance) ∧
      (∀ i, i < s.lweN → w i ≠ 0 → w i ≠ 1 → (∀ j, j < i → w j = 0 ∨ w j = 1) →
        exec (.keyLdl a imm) s = .next (s.takeFault ⟨.badOperand, w i⟩))) ∧
    (s.ringOk = true → s.spanOk (base + imm) (4 * s.extN) →
      (∀ i, i < s.extN → memWord s.dmem ((base + imm).toNat + 4 * i) = some (w i)) →
      ((∀ i, i < s.extN → w i = 0 ∨ w i = 1) →
        exec (.keyLdr a imm) s = .next (s.setKeyR
          (vec s.rankK fun m => vec s.ringN fun j => w (m * s.ringN + j) == 1)).advance) ∧
      (∀ i, i < s.extN → w i ≠ 0 → w i ≠ 1 → (∀ j, j < i → w j = 0 ∨ w j = 1) →
        exec (.keyLdr a imm) s = .next (s.takeFault ⟨.badOperand, w i⟩)))

/-! ## RLWE -/

/-- R400, R401: R.ENC0 and R.ENC: k uniform components, and b = Σ a·s + noise (+ μ). -/
def Obligations.RlweEncryptResults : Prop :=
  ∀ (s : State) (d : RIdx) (a : PIdx) (key : KeyR), s.ringOk = true → s.keyR = some key →
    key.deg = s.ringN → key.k = s.rankK →
    (∃ (u : Nat → Nat → Word) (e : Nat → Int),
      (∀ i bound, Config.gaussBound s.alpha = some bound → (e i).natAbs ≤ bound) ∧
      exec (.rEnc0 d) s = .next ((s.setR d ⟨vec (s.rankK + 1) fun q => vec s.ringN fun i =>
          if q < s.rankK then u q i
          else ksumAt s.ringN s.rankK key.s ⟨vec s.rankK fun m => vec s.ringN (u m), 0⟩ i + u32 (e i),
        f64mul s.alpha s.alpha⟩).bump (s.rankK * s.ringN + s.ringN)).advance) ∧
    (∀ mu, s.pRegs[a] = some mu → mu.deg = s.ringN →
      ∃ (u : Nat → Nat → Word) (e : Nat → Int),
        (∀ i bound, Config.gaussBound s.alpha = some bound → (e i).natAbs ≤ bound) ∧
        exec (.rEnc d a) s = .next ((s.setR d ⟨vec (s.rankK + 1) fun q => vec s.ringN fun i =>
            if q < s.rankK then u q i
            else ksumAt s.ringN s.rankK key.s ⟨vec s.rankK fun m => vec s.ringN (u m), 0⟩ i + u32 (e i)
              + coeff mu.c i,
          f64mul s.alpha s.alpha⟩).bump (s.rankK * s.ringN + s.ringN)).advance)

/-- R391, R402, R403: R.PHASE subtracts the exact key sum; R.TRIV makes the noiseless sample. R404, R405,
R407: R.ADD, R.SUB and R.MULXAIM1, component by component; the variance of R.MULXAIM1 is a draw, and an
exponent of 2N or more faults. -/
def Obligations.RlweLinearResults : Prop :=
  (∀ (s : State) (d : PIdx) (r : RIdx), s.ringOk = true →
      (∀ x key, s.rRegs[r] = some x → x.deg = s.ringN → x.k = s.rankK → s.keyR = some key →
        key.deg = s.ringN → key.k = s.rankK →
        exec (.rPhase d r) s = .next (s.setP d (vec s.ringN fun i => coeff (x.val.get s.rankK) i
          - u32 (∑ m ∈ Finset.range s.rankK,
              nprodAt s.ringN (ints s.ringN (x.val.get m)) (keyInts s.ringN (key.s.getD m [])) i))).advance) ∧
      (∀ mu, s.pRegs[d] = some mu → mu.deg = s.ringN →
        exec (.rTriv r d) s = .next (s.setR r ⟨vec (s.rankK + 1) fun q => vec s.ringN fun i =>
          if q < s.rankK then 0 else coeff mu.c i, 0⟩).advance)) ∧
  (∀ (s : State) (d a : RIdx) (b : SIdx) (x acc : RReg) (e : Word), s.ringOk = true → s.rRegs[a] = some x →
      x.deg = s.ringN → x.k = s.rankK →
      (s.rRegs[d] = some acc → acc.deg = s.ringN → acc.k = s.rankK →
        exec (.rAdd d a) s = .next (s.setR d ⟨vec (s.rankK + 1) fun q => vec s.ringN fun i =>
          coeff (acc.val.get q) i + coeff (x.val.get q) i, f64add acc.val.var x.val.var⟩).advance ∧
        exec (.rSub d a) s = .next (s.setR d ⟨vec (s.rankK + 1) fun q => vec s.ringN fun i =>
          coeff (acc.val.get q) i - coeff (x.val.get q) i, f64add acc.val.var x.val.var⟩).advance) ∧
      (s.getS b = some e →
        (e.toNat < 2 * s.ringN → ∃ var, exec (.rMulxaim1 d a b) s = .next ((s.setR d
          ⟨vec (s.rankK + 1) fun q => vec s.ringN fun i =>
            coeff (rot s.ringN e.toNat (x.val.get q)) i - coeff (x.val.get q) i, var⟩).bump 1).advance) ∧
        (2 * s.ringN ≤ e.toNat → exec (.rMulxaim1 d a b) s = .next (s.takeFault ⟨.badOperand, e⟩))))

/-- R406: R.ADDMULR adds the FFT product to each component, and p's squared norm scales the variance. -/
def Obligations.RlweAddMulResult : Prop :=
  ∀ (s : State) (d : RIdx) (a : PIdx) (b : RIdx) (p : PReg) (src acc : RReg), s.ringOk = true →
    s.pRegs[a] = some p → s.rRegs[b] = some src → s.rRegs[d] = some acc → p.deg = s.ringN →
    src.deg = s.ringN → src.k = s.rankK → acc.deg = s.ringN → acc.k = s.rankK →
    ∃ e : Nat → Nat → Int,
      (∀ q i, (sbits (ints s.ringN p.c) ≤ 10 → (e q i).natAbs ≤ 1) ∧
        (10 < sbits (ints s.ringN p.c) →
          ∀ bound, Config.fftWideErr (sbits (ints s.ringN p.c)) s.ringN = some bound → (e q i).natAbs ≤ bound)) ∧
      exec (.rAddmulr d a b) s = .next ((s.setR d ⟨vec (s.rankK + 1) fun q => vec s.ringN fun i =>
          coeff (acc.val.get q) i
            + u32 (nprodAt s.ringN (ints s.ringN p.c) (ints s.ringN (src.val.get q)) i + e q i),
        f64add acc.val.var (f64mul (f64fromInt (∑ i ∈ Finset.range s.ringN, (coeff p.c i).toInt ^ 2))
          src.val.var)⟩).bump ((s.rankK + 1) * s.ringN)).advance

/-- R408: R.EXTRACT, entry by entry; an index of N or more faults. -/
def Obligations.RlweExtractResult : Prop :=
  ∀ (s : State) (d : LIdx) (a : RIdx) (b : SIdx) (x : RReg) (i : Word), s.ringOk = true →
    s.rRegs[a] = some x → s.getS b = some i → x.deg = s.ringN → x.k = s.rankK →
    (i.toNat < s.ringN → ∃ l : LReg, exec (.rExtract d a b) s = .next (s.setL d l).advance ∧
      l.dim = s.rankK * s.ringN ∧ l.a.length = l.dim ∧ l.b = coeff (x.val.get s.rankK) i.toNat ∧
      l.var = x.val.var ∧
      (∀ m j, m < s.rankK → j < s.ringN → coeff l.a (m * s.ringN + j) =
        if j ≤ i.toNat then coeff (x.val.get m) (i.toNat - j)
        else -coeff (x.val.get m) (i.toNat + s.ringN - j))) ∧
    (s.ringN ≤ i.toNat → exec (.rExtract d a b) s = .next (s.takeFault ⟨.badOperand, i⟩))

/-- R408, 90_conflicts.md C1: extracting coefficient `i` gives an LWE sample whose phase under the extracted
key is coefficient `i` of the RLWE phase, for every key and sample. -/
def Obligations.ExtractionKeepsThePhase : Prop :=
  ∀ (n k i : Nat) (x : Rlwe) (key : KeyR), i < n → key.deg = n → key.k = k →
    lwePhaseOf (rlweExtract n k i x) (extractedKey key) = coeff (rlwePhase n k key.s x) i

/-- R409, R410, R113: R.LD reads (k+1)·N + 2 words (a never-written one is a draw); R.ST stores the image. -/
def Obligations.RlweLoadStoreResults : Prop :=
  ∀ (s : State) (d : RIdx) (a : SIdx) (imm base : Word), s.ringOk = true → s.getS a = some base →
    s.spanOk (base + imm) (4 * (s.rankK + 1) * s.ringN + 8) →
    (∃ (w : List Word) (draws : Nat), w.length = (s.rankK + 1) * s.ringN + 2 ∧
      (∀ i, i < (s.rankK + 1) * s.ringN + 2 →
        ∀ v, memWord s.dmem ((base + imm).toNat + 4 * i) = some v → coeff w i = v) ∧
      exec (.rLd d a imm) s = .next ((s.bump draws).setR d
        ⟨vec (s.rankK + 1) fun q => vec s.ringN fun i => coeff w (q * s.ringN + i),
          coeff w ((s.rankK + 1) * s.ringN + 1) ++ coeff w ((s.rankK + 1) * s.ringN)⟩).advance) ∧
    (∀ x, s.rRegs[d] = some x → x.deg = s.ringN → x.k = s.rankK →
      ∃ w : List Word, w.length = (s.rankK + 1) * s.ringN + 2 ∧
        (∀ q i, q ≤ s.rankK → i < s.ringN → coeff w (q * s.ringN + i) = coeff (x.val.get q) i) ∧
        coeff w ((s.rankK + 1) * s.ringN) = x.val.var.extractLsb' 0 32 ∧
        coeff w ((s.rankK + 1) * s.ringN + 1) = x.val.var.extractLsb' 32 32 ∧
        exec (.rSt d a imm) s = .next (s.store (base + imm).toNat w).advance)

/-! ## RGSW -/

/-- R433, R440: G.DECOMP writes digit polynomial j to P[d + j], reading the source first; a run past P15
faults with l. -/
def Obligations.GadgetDecomposeResult : Prop :=
  ∀ (s : State) (d a : PIdx) (x : PReg), s.nOk = true → s.gadOk = true → s.pRegs[a] = some x →
    x.deg = s.ringN →
    (d.val + s.gadL ≤ 16 → ∃ t, exec (.gDecomp d a) s = .next t ∧ t.pc = s.pc + 8 ∧
      (∀ j : PIdx, t.pRegs[j] =
        if d.val ≤ j.val ∧ j.val < d.val + s.gadL then
          some ⟨s.ringN, vec s.ringN fun i => u32 (decDigit s.gadL s.gadBits (j.val - d.val) (coeff x.c i))⟩
        else s.pRegs[j]) ∧
      { t with pRegs := s.pRegs, pc := s.pc } = s) ∧
    (16 < d.val + s.gadL → exec (.gDecomp d a) s = .next (s.takeFault ⟨.badOperand, s.csr.bkL⟩))

/-- R434: the digits lie in [−half_Bg, half_Bg) and rebuild x but for the bits below the last digit. -/
def Obligations.GadgetReconstruction : Prop :=
  ∀ (l bg : Nat) (x : Word), 1 ≤ l → 1 ≤ bg → l * bg ≤ 32 →
    (∀ j, j < l → -2 ^ (bg - 1) ≤ decDigit l bg j x ∧ decDigit l bg j x < 2 ^ (bg - 1)) ∧
    u32 (∑ j ∈ Finset.range l, decDigit l bg j x * (gadgetH bg j : Int))
      = x - BitVec.ofNat 32 (x.toNat % 2 ^ (32 - l * bg))

/-- R441: G.ENC writes (k+1)·l encryptions of zero to the slot, each with m·H[j] added to coefficient 0 of its
component i; a slot past the store faults. R442, R114: G.LD reads (k+1)·l row images in order; a slot past
the store faults. -/
def Obligations.GadgetKeyResults : Prop :=
  (∀ (s : State) (a b : SIdx) (slot m : Word) (key : KeyR), s.ringOk = true → s.gadOk = true →
      s.getS a = some slot → s.getS b = some m → s.keyR = some key → key.deg = s.ringN → key.k = s.rankK →
      (slot.toNat < s.params.bkSlots →
        ∃ (u : Nat → Nat → Nat → Word) (e : Nat → Nat → Int),
          (∀ p i bound, Config.gaussBound s.alpha = some bound → (e p i).natAbs ≤ bound) ∧
          exec (.gEnc a b) s = .next ((s.setBk slot.toNat (vec ((s.rankK + 1) * s.gadL) fun p =>
            ⟨vec (s.rankK + 1) fun q => vec s.ringN fun i =>
              (if q < s.rankK then u p q i
                else ksumAt s.ringN s.rankK key.s ⟨vec s.rankK fun r => vec s.ringN (u p r), 0⟩ i + u32 (e p i))
              + (if q = p / s.gadL ∧ i = 0
                  then m * BitVec.ofNat 32 (2 ^ (32 - (p % s.gadL + 1) * s.gadBits)) else 0),
            f64mul s.alpha s.alpha⟩)).bump
              ((s.rankK + 1) * s.gadL * (s.rankK * s.ringN + s.ringN))).advance) ∧
      (s.params.bkSlots ≤ slot.toNat → exec (.gEnc a b) s = .next (s.takeFault ⟨.badOperand, slot⟩))) ∧
  (∀ (s : State) (d a : SIdx) (imm base slot : Word), s.ringOk = true → s.gadOk = true →
      s.getS a = some base → s.getS d = some slot →
      (slot.toNat < s.params.bkSlots →
        s.spanOk (base + imm) ((s.rankK + 1) * s.gadL * (4 * (s.rankK + 1) * s.ringN + 8)) →
        ∃ (w : List Word) (draws : Nat),
          (∀ i, i < (s.rankK + 1) * s.gadL * ((s.rankK + 1) * s.ringN + 2) →
            ∀ v, memWord s.dmem ((base + imm).toNat + 4 * i) = some v → coeff w i = v) ∧
          exec (.gLd d a imm) s = .next ((s.bump draws).setBk slot.toNat
            (vec ((s.rankK + 1) * s.gadL) fun p =>
              ⟨vec (s.rankK + 1) fun q => vec s.ringN fun i =>
                coeff w (p * ((s.rankK + 1) * s.ringN + 2) + q * s.ringN + i),
              coeff w (p * ((s.rankK + 1) * s.ringN + 2) + (s.rankK + 1) * s.ringN + 1) ++
                coeff w (p * ((s.rankK + 1) * s.ringN + 2) + (s.rankK + 1) * s.ringN)⟩)).advance) ∧
      (s.params.bkSlots ≤ slot.toNat → exec (.gLd d a imm) s = .next (s.takeFault ⟨.badOperand, slot⟩)))

/-- R443: G.EXTPROD replaces R[d] by Σ digit polynomial p × row p, with an error within β(M(Bgbit, kpl)) on
each coefficient and a drawn variance; a slot past the store, an unwritten and a stale one fault. -/
def Obligations.ExternalProductResult : Prop :=
  ∀ (s : State) (d a : RIdx) (b : SIdx) (c : RReg) (slot : Word), s.ringOk = true → s.gadOk = true →
    s.rRegs[a] = some c → s.getS b = some slot → c.deg = s.ringN → c.k = s.rankK →
    (s.params.bkSlots ≤ slot.toNat → exec (.gExtprod d a b) s = .next (s.takeFault ⟨.badOperand, slot⟩)) ∧
    (slot.toNat < s.params.bkSlots →
      (∀ g, s.getBk slot.toNat = some g → bkFits s g = true →
        ∃ (e : Nat → Nat → Int) (var : F64),
          (∀ r t bound, errBound s.ringN (.m s.gadBits ((s.rankK + 1) * s.gadL)) = some bound →
            (e r t).natAbs ≤ bound) ∧
          exec (.gExtprod d a b) s = .next ((s.setR d ⟨vec (s.rankK + 1) fun r => vec s.ringN fun t =>
            u32 (∑ p ∈ Finset.range ((s.rankK + 1) * s.gadL),
              nprodAt s.ringN (decPoly s.ringN s.gadL s.gadBits (p % s.gadL) (c.val.get (p / s.gadL)))
                (ints s.ringN ((g.rows.getD p ⟨[], 0⟩).get r)) t + e r t), var⟩).bump
                  ((s.rankK + 1) * s.ringN)).advance) ∧
      (s.getBk slot.toNat = none → exec (.gExtprod d a b) s = .next (s.takeFault (.uninit .bk slot.toNat))) ∧
      (∀ g, s.getBk slot.toNat = some g → bkFits s g = false →
        exec (.gExtprod d a b) s = .next (s.takeFault (.mismatch .bk slot.toNat))))

/-- R443's example, R434: the external product by the bare gadget matrix gives back the input, truncated to
the digits, up to the error draws. -/
def Obligations.ExternalProductByGadgetMatrix : Prop :=
  ∀ (n k l bg : Nat) (g : Rgsw) (c : Rlwe) (c0 : Nat) (var : F64), 1 ≤ n → 1 ≤ l → 1 ≤ bg → l * bg ≤ 32 →
    g.rows = (vec ((k + 1) * l) fun p => ⟨vec (k + 1) fun q => vec n fun t =>
      if q = p / l ∧ t = 0 then BitVec.ofNat 32 (gadgetH bg (p % l)) else 0, 0⟩) →
    ∀ r t, r ≤ k → t < n →
      coeff ((extprod n k l bg g c c0 var).get r) t
        = coeff (c.get r) t - BitVec.ofNat 32 ((coeff (c.get r) t).toNat % 2 ^ (32 - l * bg))
          + u32 (drawErr (errBound n (.m bg ((k + 1) * l))) (c0 + r * n + t))

/-! ## Key switching and bootstrapping -/

/-- R465: KS switches the sample by the key at KSK_BASE. R490 to R492: BR.ROT, BOOT.NKS and BOOT write ACC,
its extraction at index 0, and the key switch of that. -/
def Obligations.KeySwitchAndBootstrapResults : Prop :=
  (∀ (s : State) (d a : LIdx) (cin : LReg), s.ringOk = true → s.lweOk = true → s.ksOk = true →
      s.lRegs[a] = some cin → cin.dim = s.extN → s.kskReady →
      ∃ (out : LReg) (draws : Nat),
        keySwitch s.dmem s.csr.kskBase.toNat (s.rankK * s.ringN) s.lweN s.ksT s.ksBits cin s.drawCtr
          = (out, s.drawCtr + draws) ∧
        exec (.ks d a) s = .next ((s.setL d out).bump draws).advance) ∧
  (∀ (s : State) (r : RIdx) (d a : LIdx) (b : SIdx) (c : LReg) (mu : Word), s.ringOk = true →
      s.lweOk = true → s.gadOk = true → s.bkFit = true → s.lRegs[a] = some c → s.getS b = some mu →
      c.dim = s.lweN → s.bkReady →
      ∃ (acc : Rlwe) (n1 : Nat),
        blindRotate s.ringN s.rankK s.gadL s.gadBits s.bk c mu s.drawCtr = (acc, s.drawCtr + n1) ∧
        exec (.brRot r a b) s = .next ((s.setR r acc).bump n1).advance ∧
        exec (.bootNks d a b) s = .next ((s.setL d (rlweExtract s.ringN s.rankK 0 acc)).bump n1).advance ∧
        (s.ksOk = true → s.kskReady → ∃ (out : LReg) (n2 : Nat),
          keySwitch s.dmem s.csr.kskBase.toNat (s.rankK * s.ringN) s.lweN s.ksT s.ksBits
            (rlweExtract s.ringN s.rankK 0 acc) (s.drawCtr + n1) = (out, s.drawCtr + n1 + n2) ∧
          exec (.boot d a b) s = .next ((s.setL d out).bump (n1 + n2)).advance))

/-- R465, R463, R112: with the entries it reads written, the switched sample is b minus the sum of the
entries that the non-zero digits select, word by word; its variance is their variances added to +0 in loop
order; and nothing is drawn. -/
def Obligations.KeySwitchSubtractsTheSelectedEntries : Prop :=
  ∀ (m : Memory) (base nSrc n t bb : Nat) (cin : LReg) (c : Nat) (w : Nat → Nat → Nat → Word),
    (∀ i j, i < nSrc → j < t → ksDigit t bb j (coeff cin.a i) ≠ 0 → ∀ q, q < n + 3 →
      memWord m (base + ((i * t + j) * 2 ^ bb + ksDigit t bb j (coeff cin.a i)) * (4 * n + 12) + 4 * q)
        = some (w i j q)) →
    ∃ out : LReg, keySwitch m base nSrc n t bb cin c = (out, c) ∧ out.dim = n ∧ out.a.length = n ∧
      out.b = cin.b - ∑ i ∈ Finset.range nSrc, ∑ j ∈ Finset.range t,
        (if ksDigit t bb j (coeff cin.a i) = 0 then 0 else w i j n) ∧
      (∀ q, q < n → coeff out.a q = -∑ i ∈ Finset.range nSrc, ∑ j ∈ Finset.range t,
        (if ksDigit t bb j (coeff cin.a i) = 0 then 0 else w i j q)) ∧
      out.var = ((List.range nSrc).flatMap fun i => (List.range t).filterMap fun j =>
        if ksDigit t bb j (coeff cin.a i) = 0 then none
        else some (w i j (n + 2) ++ w i j (n + 1))).foldl f64add 0

/-- R463: the digits rebuild a_i rounded to the nearest multiple of 2^(32 − t·bb), ties up. -/
def Obligations.KeySwitchDigitsRound : Prop :=
  ∀ (t bb : Nat) (a : Word), 1 ≤ t → 1 ≤ bb → t * bb ≤ 31 →
    (∀ j, ksDigit t bb j a =
      ((a + BitVec.ofNat 32 (2 ^ (31 - t * bb))).toNat >>> (32 - (j + 1) * bb)) &&& (2 ^ bb - 1)) ∧
    (∀ j, ksDigit t bb j a < 2 ^ bb) ∧
    ∑ j ∈ Finset.range t, ksDigit t bb j a * 2 ^ (32 - (j + 1) * bb)
      = (a.toNat + 2 ^ (31 - t * bb)) / 2 ^ (32 - t * bb) * 2 ^ (32 - t * bb) % 2 ^ 32

/-- R483, R484: the blind rotation starts from X^e0·v and, in order of i, either skips or adds the external
product of BK[i] with (X^ā_i − 1)·ACC, taken from the ACC before. -/
def Obligations.BlindRotationSteps : Prop :=
  ∀ (n k l bg : Nat) (bk : Assoc Rgsw) (c : LReg) (mu : Word) (c0 : Nat),
    (blindRotate n k l bg bk { c with dim := 0 } mu c0 =
      (rlweTrivial n k (rot n ((2 * n - msfrom c.b (2 * n)) % (2 * n)) (List.replicate n mu)), c0)) ∧
    (∀ i acc c1, blindRotate n k l bg bk { c with dim := i } mu c0 = (acc, c1) →
      (msfrom (coeff c.a i) (2 * n) = 0 →
        blindRotate n k l bg bk { c with dim := i + 1 } mu c0 = (acc, c1)) ∧
      (∀ g, assocGet bk i = some g → msfrom (coeff c.a i) (2 * n) ≠ 0 → ∃ var prod,
        prod = extprod n k l bg g
          (rlweMulXaiM1 n k (msfrom (coeff c.a i) (2 * n)) acc var) c1 var ∧
        blindRotate n k l bg bk { c with dim := i + 1 } mu c0
          = (⟨vec (k + 1) fun q => vec n fun t => coeff (acc.get q) t + coeff (prod.get q) t, var⟩,
             c1 + (k + 1) * n)))

/-- R487 for samples whose every ā_i is 0: BOOT.NKS gives the noiseless trivial sample of +μ when the rounded
phase b̄ is in [0, N), and of −μ when it is in [N, 2N). -/
def Obligations.BootstrapSignOfTrivialSamples : Prop :=
  ∀ (s : State) (d a : LIdx) (b : SIdx) (c : LReg) (mu : Word), s.ringOk = true → s.lweOk = true →
    s.gadOk = true → s.bkFit = true → s.lRegs[a] = some c → s.getS b = some mu → c.dim = s.lweN →
    s.bkReady → (∀ i, i < s.lweN → msfrom (coeff c.a i) (2 * s.ringN) = 0) →
    exec (.bootNks d a b) s = .next (s.setL d ⟨s.rankK * s.ringN, List.replicate (s.rankK * s.ringN) 0,
      if msfrom c.b (2 * s.ringN) < s.ringN then mu else -mu, 0⟩).advance

/-- R498: for every legal N of 4 or more, the rounded combined phase of each gate of R497 is in [0, N) exactly
when the gate's Boolean function is true. At the legal N = 2 it is not so: there −1/8 rounds to 0 (log 22). -/
def Obligations.GateBiasesGiveTheTruthTable : Prop :=
  (∀ (g : Gate) (a b : Bool) (n : Nat), degreeOk n → 4 ≤ n →
    (msfrom (g.phase a b) (2 * n) < n ↔ g.truth a b = true)) ∧
  (degreeOk 2 ∧ ∃ (g : Gate) (a b : Bool), ¬ (msfrom (g.phase a b) (2 * 2) < 2 ↔ g.truth a b = true))

/-! ## Where instructions fault -/

/-- R52, R280, R350, R390, R460, R480: the first false predicate of those an instruction needs, in R52's order,
faults with BAD_PARAM and the lowest-numbered CSR the predicate names, whatever its operands. Codes and
order where R52 and an instruction rule differ are the model's choice (logs 8 and 9, DEDUCED). -/
def Obligations.IllegalRingParametersFault : Prop :=
  (∀ (i : Instr) (s : State) (pre post : List ParamPred) (p : ParamPred),
      neededParams i = pre ++ p :: post → (∀ q ∈ pre, q.Holds s) → ¬ p.Holds s →
      exec i s = .next (s.takeFault ⟨.badParam, p.csrNumber⟩)) ∧
  (∀ (i : Instr) (s : State),
    (needsDegree i = true → s.nOk = false → exec i s = .next (s.takeFault ⟨.badParam, 0x000⟩)) ∧
    (needsRank i = true → s.nOk = true → s.kOk = false → exec i s = .next (s.takeFault ⟨.badParam, 0x001⟩)))

/-- R31, R201, R522, R530 items 6, 7 and 10: once the parameter checks pass (and CSRW's number is read-write),
the first register an instruction reads, in field order A, B, D, whose valid bit is clear faults UNINIT with
its file and number; after the registers, a key that is used and not valid; and the first slot that BR.ROT,
BOOT.NKS or BOOT needs and that is not valid. The order among checks is that of R530 and of each
instruction's own list, as log 18 (DEDUCED) reads them. -/
def Obligations.UninitialisedOperandsFault : Prop :=
  (∀ (i : Instr) (s : State) (pre post : List RegOperand) (o : RegOperand),
      (∀ p ∈ neededParams i, p.Holds s) → (∀ a c, i = .csrw a c → c < 10) →
      readOperands i = pre ++ o :: post → (∀ q ∈ pre, q.Readable s) → ¬ o.Readable s →
      exec i s = .next (s.takeFault ⟨.uninit, o.info⟩)) ∧
  (∀ (i : Instr) (s : State), OperandsOk i s →
      (readsKeyL i = true → s.keyL = none → exec i s = .next (s.takeFault ⟨.uninit, 0x60000⟩)) ∧
      (readsKeyR i = true → s.keyR = none → exec i s = .next (s.takeFault ⟨.uninit, 0x70000⟩)) ∧
      (∀ m, usesAllSlots i = true → m < s.lweN →
        (∀ j, j < m → ∃ g, s.getBk j = some g ∧ bkFits s g = true) → s.getBk m = none →
        exec i s = .next (s.takeFault ⟨.uninit, BitVec.ofNat 32 (0x50000 + m)⟩)))

/-- R34, R35, R37, R350, R351, R581: once parameters and valid bits are checked, the first register whose tags
differ from the CSRs (or from its partner's) faults PARAM_MISMATCH with its file and number; then a used
key, or a slot that BR.ROT, BOOT.NKS or BOOT needs. R105, R106, R108: after those, every transfer, and the
key-switching key as a whole, at a misaligned address faults with it, and past DMEM_SIZE otherwise, and
nothing moves. The order of valid bits and tags is that of R530 and R361 (log 18, DEDUCED). -/
def Obligations.BadTransfersAndStaleTagsFault : Prop :=
  (∀ (i : Instr) (s : State) (pre post : List RegOperand) (o : RegOperand),
      (∀ p ∈ neededParams i, p.Holds s) → (∀ q ∈ readOperands i, q.Readable s) →
      (keyBeforeTags i = true → (readsKeyL i = true → s.keyL ≠ none) ∧ (readsKeyR i = true → s.keyR ≠ none)) →
      readOperands i = pre ++ o :: post → (∀ q ∈ pre, q.Fits i s) → ¬ o.Fits i s →
      exec i s = .next (s.takeFault ⟨.paramMismatch, o.info⟩)) ∧
  (∀ (i : Instr) (s : State), OperandsOk i s →
      (∀ x, readsKeyL i = true → s.keyL = some x → x.dim ≠ s.lweN →
        exec i s = .next (s.takeFault ⟨.paramMismatch, 0x60000⟩)) ∧
      (∀ x, readsKeyR i = true → s.keyR = some x → ¬ (x.deg = s.ringN ∧ x.k = s.rankK) →
        exec i s = .next (s.takeFault ⟨.paramMismatch, 0x70000⟩)) ∧
      (∀ m g, usesAllSlots i = true → m < s.lweN →
        (∀ j, j < m → ∃ x, s.getBk j = some x ∧ bkFits s x = true) → s.getBk m = some g →
        ¬ (g.deg = s.ringN ∧ g.k = s.rankK ∧ g.l = s.gadL ∧ g.bgbit = s.gadBits) →
        exec i s = .next (s.takeFault ⟨.paramMismatch, BitVec.ofNat 32 (0x50000 + m)⟩))) ∧
  (∀ (i : Instr) (s : State) (ea : Word) (len : Nat), OperandsOk i s →
      (∀ d a imm v, i = .gLd d a imm → s.getS d = some v → v.toNat < s.params.bkSlots) →
      (usesAllSlots i = true → s.bkReady) → checkedSpan i s = some (ea, len) →
      (ea.toNat % 4 ≠ 0 → exec i s = .next (s.takeFault ⟨.dmemMisaligned, ea⟩)) ∧
      (ea.toNat % 4 = 0 → s.params.dmemSize < ea.toNat + len →
        exec i s = .next (s.takeFault ⟨.dmemOob, ea⟩)))

/-! ## Taking a fault, frames and invariants -/

/-- R523: what a fault writes, and that it writes nothing else. R524, R15: an instruction that ends FAULTED
has written nothing but R523's registers (and the number of draws made, the model's own). -/
def Obligations.FaultActionAndFaultFrame : Prop :=
  (∀ (s : State) (x : Exc), raise s x = .next { s with
      runState := .faulted, cause := x.cause, faultPc := s.pc, faultInfo := x.info, irqPending := true }) ∧
  (∀ (i : Instr) (s t : State), s.runState = .running → exec i s = .next t → t.runState = .faulted →
      FaultFrame s t)

/-- The frame of every instruction: when it does not fault, it writes its destinations and nothing else; every
byte of DMEM outside the bytes it stores to reads as before. -/
def Obligations.InstructionsWriteOnlyTheirDestinations : Prop :=
  ∀ (i : Instr) (s t : State), s.runState = .running → exec i s = .next t → t.runState ≠ .faulted →
    Frame i s t

/-- R203: every instruction but HALT and the control transfers ends with pc + 8 when it does not fault; a
faulting one and HALT leave pc. -/
def Obligations.SequentialPcAdvance : Prop :=
  ∀ (i : Instr) (s t : State), s.runState = .running → exec i s = .next t →
    (t.runState = .faulted → t.pc = s.pc) ∧
    (t.runState ≠ .faulted → isControl i = false → t.pc = s.pc + 8) ∧
    (i = .halt → t.pc = s.pc)

/-- The invariant of every reachable state holds after power-on, for every legal size. -/
def Obligations.PowerOnStateIsWellFormed : Prop :=
  (∀ p : Params, p.Ok → (State.powerOn p).Wf) ∧ State.reset.Wf

/-- Every step, of the sequencer or of the host, keeps the invariant. -/
def Obligations.EveryStepKeepsWellFormed : Prop :=
  ∀ s t : State, s.Wf → step s = .next t → t.Wf

/-- R39, R40, R535: no instruction but those the rules name depends on a key's contents, and none but
KEY.LDL and KEY.LDR writes one. -/
def Obligations.OnlyKeyInstructionsReadKeys : Prop :=
  ∀ (i : Instr) (s t : State) (xl : Option KeyL) (xr : Option KeyR),
    xl.isSome = s.keyL.isSome → xr.isSome = s.keyR.isSome →
    writesKeyL i = false → writesKeyR i = false →
    (readsKeyL i = true → xl = s.keyL) → (readsKeyR i = true → xr = s.keyR) → exec i s = .next t →
    exec i { s with keyL := xl, keyR := xr } = .next { t with keyL := xl, keyR := xr }

/-! ## Reset and the host -/

/-- R75, R570: every piece of state after a reset; power-on and host reset differ in the memories only. -/
def Obligations.ResetValues : Prop :=
  (∀ s ∈ [State.reset], s.getS 0 = some 0 ∧ (∀ i : SIdx, i ≠ 0 → s.getS i = none) ∧ s.pc = 0 ∧
    (∀ i : PIdx, s.pRegs[i] = none) ∧ (∀ i : FIdx, s.fRegs[i] = none) ∧ (∀ i : LIdx, s.lRegs[i] = none) ∧
    (∀ i : RIdx, s.rRegs[i] = none) ∧ (∀ slot, s.getBk slot = none) ∧ s.keyL = none ∧ s.keyR = none ∧
    s.runState = .idle ∧
    s.csr = ⟨1024, 1, 630, 3, 7, 8, 2, 0x00000000, 0x3F000000, 0⟩ ∧
    csrRead s 0x010 = some 128 ∧ csrRead s 0x011 = some 64 ∧ csrRead s 0x012 = some 0x7F ∧
    csrRead s 0x013 = some 0x81020000 ∧ csrRead s 0x014 = some 6 ∧ csrRead s 0x015 = some 0x8000 ∧
    csrRead s 0x016 = some 1024 ∧ csrRead s 0x017 = some 0x3F ∧ csrRead s 0x018 = some 0 ∧
    s.startPc = 0 ∧ s.cause = .none ∧ s.faultPc = 0 ∧ s.faultInfo = 0 ∧ s.irqPending = false ∧
    s.irqEn = false ∧ (∀ a, memWord s.imem a = none) ∧ (∀ a, memWord s.dmem a = none)) ∧
  (∀ s : State, ∃ t, t = s.hostReset ∧ t.imem = s.imem ∧ t.dmem = s.dmem ∧
    { t with imem := [], dmem := [], drawCtr := 0, hostIn := [], hostOut := [] } = State.powerOn s.params)

/-- R61, R542: what a host write of CTRL does in each STATE. -/
def Obligations.HostControlWrites : Prop :=
  ∀ (s : State) (v : Word),
    (v.getLsbD 1 = true → portWrite s 0x008 v = s.hostReset) ∧
    (v.getLsbD 1 = false → v.getLsbD 0 = true → s.runState ≠ .running →
      portWrite s 0x008 v = { s with pc := s.startPc, cause := .none, faultPc := 0, faultInfo := 0,
                                     irqPending := false, runState := .running }) ∧
    (v.getLsbD 1 = false → v.getLsbD 0 = true → s.runState = .running → portWrite s 0x008 v = s) ∧
    (v.getLsbD 1 = false → v.getLsbD 0 = false → portWrite s 0x008 v = s)

/-- R121, R116, R540: while RUNNING, every host offset from 0x1000 on is refused: reads give 0, writes are
ignored and no state changes. R60, R62 to R65, R525: in every STATE the register block below 0x1000 (an
offset is aligned down to a word: DESIGN CHOICE, log 5) reads and writes as its table says, CTRL with R61 and
R542, and irq_out is IRQ_PENDING and IRQ_EN. -/
def Obligations.WindowsRefusedWhileRunning : Prop :=
  ∀ (s : State) (off v : Word),
    (s.runState = .running → 0x1000 ≤ off.toNat → portRead s off = (0, s) ∧ portWrite s off v = s) ∧
    (∀ o, o = off.toNat / 4 * 4 → o < 0x1000 →
      (portRead s off).2 = s ∧
      (o = 0x000 → (portRead s off).1 = 0x54464845) ∧
      (o = 0x004 → (portRead s off).1 = 7) ∧
      (o = 0x008 → (portRead s off).1 = 0) ∧
      (o = 0x00C → ∀ p ∈ ([(.idle, 0), (.running, 1), (.halted, 2), (.faulted, 3)] : List (RunState × Word)),
        s.runState = p.1 → (portRead s off).1 = p.2 + if s.irqPending then 0x100 else 0) ∧
      (o = 0x010 → (portRead s off).1 = if s.irqEn then 1 else 0) ∧
      (o = 0x014 → (portRead s off).1 = s.startPc) ∧
      (o = 0x018 → (portRead s off).1 = s.pc) ∧
      (o = 0x01C → ∀ p ∈ ([(.none, 0), (.illegalInstr, 1), (.fetchMisaligned, 2), (.fetchOob, 3),
          (.dmemMisaligned, 4), (.dmemOob, 5), (.badParam, 6), (.paramMismatch, 7), (.uninit, 8),
          (.badOperand, 9), (.illegalCsr, 10)] : List (Cause × Word)),
        s.cause = p.1 → (portRead s off).1 = p.2) ∧
      (o = 0x020 → (portRead s off).1 = s.faultPc) ∧
      (o = 0x024 → (portRead s off).1 = s.faultInfo) ∧
      (0x028 ≤ o → (portRead s off).1 = 0) ∧
      (o = 0x008 → portWrite s off v =
        if v.getLsbD 1 then s.hostReset
        else if v.getLsbD 0 && s.runState != .running then
          { s with pc := s.startPc, cause := .none, faultPc := 0, faultInfo := 0, irqPending := false,
                   runState := .running }
        else s) ∧
      (o = 0x00C → portWrite s off v = if v.getLsbD 8 then { s with irqPending := false } else s) ∧
      (o = 0x010 → portWrite s off v = { s with irqEn := v.getLsbD 0 }) ∧
      (o = 0x014 → portWrite s off v = { s with startPc := v }) ∧
      (o ∉ [0x008, 0x00C, 0x010, 0x014] → portWrite s off v = s)) ∧
    s.irqOut = (s.irqPending && s.irqEn)

/-- R116, R541: the CSR, IMEM and DMEM windows at their host offsets while STATE ≠ RUNNING, for legal sizes (R9):
a memory word that is written reads back and no other byte changes, a never-written one reads as a draw
(R107), CSRs read as by CSRR, an unlisted one 0, and a read-write CSR stores every bit. Offsets outside the
windows read 0 and ignore writes in every STATE. An offset is aligned down to a word (DESIGN CHOICE, log 5). -/
def Obligations.HostMemoryAccess : Prop :=
  ∀ (s : State) (off v : Word) (o : Nat), s.params.Ok → o = off.toNat / 4 * 4 →
    (s.runState ≠ .running →
      (∀ addr, o = 0x10000000 + addr → addr < s.params.dmemSize →
        portWrite s off v = { s with dmem := memSetWord s.dmem addr v } ∧
        memWord (memSetWord s.dmem addr v) addr = some v ∧
        (∀ a, a < addr ∨ addr + 4 ≤ a → memByte (memSetWord s.dmem addr v) a = memByte s.dmem a) ∧
        portRead (portWrite s off v) off = (v, portWrite s off v) ∧
        (∀ w, memWord s.dmem addr = some w → portRead s off = (w, s)) ∧
        (memWord s.dmem addr = none → ∃ w, portRead s off = (w, s.bump 1))) ∧
      (∀ addr, o = 0x01000000 + addr → addr < s.params.imemSize →
        portWrite s off v = { s with imem := memSetWord s.imem addr v } ∧
        memWord (memSetWord s.imem addr v) addr = some v ∧
        (∀ a, a < addr ∨ addr + 4 ≤ a → memByte (memSetWord s.imem addr v) a = memByte s.imem a) ∧
        portRead (portWrite s off v) off = (v, portWrite s off v) ∧
        (∀ w, memWord s.imem addr = some w → portRead s off = (w, s)) ∧
        (memWord s.imem addr = none → ∃ w, portRead s off = (w, s.bump 1))) ∧
      (∀ c, o = 0x1000 + 4 * c → c < 0x1000 →
        portRead s off = ((csrRead s c).getD 0, s) ∧
        (c < 10 → portWrite s off v = s.setCsr c v ∧
          portRead (portWrite s off v) off = (v, portWrite s off v)) ∧
        (10 ≤ c → portWrite s off v = s))) ∧
    ((0x5000 ≤ o ∧ o < 0x01000000) ∨ (0x01000000 + s.params.imemSize ≤ o ∧ o < 0x10000000) ∨
        0x10000000 + s.params.dmemSize ≤ o →
      portRead s off = (0, s) ∧ portWrite s off v = s)
end

