-- ==== Sys2Proof/Laws/Memory.lean ====
section
/-! SUPPORT. Laws/Memory.lean: the laws of data held by key and of the two byte memories: a read after a
write, the canonical form (R100, R107), whole words (R103), and runs of words (R14, R104). -/

namespace Sys2Proof.Machine

/-! ### Data held by key -/

/-- Reading after writing: the written key gives the value, every other key what it gave. -/
@[simp] theorem assocGet_assocSet {α : Type} (m : Assoc α) (k j : Nat) (v : α) :
    assocGet (assocSet m k v) j = if j = k then some v else assocGet m j := by
  induction m with
  | nil => simp [assocSet, assocGet]
  | cons e m ih =>
    obtain ⟨a, w⟩ := e
    unfold assocSet
    split
    · simp [assocGet]
    · split
      · rename_i h; subst h; simp only [assocGet]; split <;> rfl
      · rename_i h1 h2
        simp only [assocGet, ih]
        by_cases hj : j = a
        · subst hj; simp [Ne.symm h2]
        · simp [hj]

/-- The entries after a write: the new one, or an old one at another key. -/
theorem mem_assocSet {α : Type} {m : Assoc α} {k : Nat} {v : α} {e : Nat × α} (h : e ∈ assocSet m k v) :
    e = (k, v) ∨ e ∈ m := by
  induction m with
  | nil => simpa [assocSet] using h
  | cons x m ih =>
    obtain ⟨a, w⟩ := x
    unfold assocSet at h
    split at h
    · simpa using h
    · split at h
      · simp only [List.mem_cons] at h ⊢; tauto
      · simp only [List.mem_cons] at h ⊢
        rcases h with h | h
        · exact .inr (.inl h)
        · rcases ih h with h | h
          · exact .inl h
          · exact .inr (.inr h)

/-- A write keeps the canonical form. -/
theorem assocSet_wf {α : Type} {m : Assoc α} (h : m.wf) (k : Nat) (v : α) : (assocSet m k v).wf := by
  induction m with
  | nil => simp [assocSet, Assoc.wf]
  | cons e m ih =>
    obtain ⟨a, w⟩ := e
    have h1 : ∀ y ∈ m, a < y.1 := (List.pairwise_cons.mp h).1
    have h2 : Assoc.wf m := (List.pairwise_cons.mp h).2
    unfold assocSet
    split
    · rename_i hk
      refine List.pairwise_cons.mpr ⟨fun y hy => ?_, h⟩
      rcases List.mem_cons.mp hy with rfl | hy
      · exact hk
      · exact hk.trans (h1 y hy)
    · split
      · rename_i hk; subst hk
        exact List.pairwise_cons.mpr ⟨h1, h2⟩
      · refine List.pairwise_cons.mpr ⟨fun y hy => ?_, ih h2⟩
        rcases mem_assocSet hy with rfl | hy
        · show a < k; omega
        · exact h1 y hy

/-- A listed key is an entry. -/
theorem assocGet_mem {α : Type} {m : Assoc α} {k : Nat} {v : α} (h : assocGet m k = some v) : (k, v) ∈ m := by
  induction m with
  | nil => simp [assocGet] at h
  | cons e m ih =>
    obtain ⟨a, w⟩ := e
    simp only [assocGet] at h
    split at h
    · rename_i hk; simp_all
    · exact List.mem_cons_of_mem _ (ih h)

/-- In the canonical form an entry is what its key reads as. -/
theorem assocGet_of_mem {α : Type} {m : Assoc α} (hm : m.wf) {k : Nat} {v : α} (h : (k, v) ∈ m) :
    assocGet m k = some v := by
  induction m with
  | nil => simp at h
  | cons e m ih =>
    obtain ⟨a, w⟩ := e
    have h1 : ∀ y ∈ m, a < y.1 := (List.pairwise_cons.mp hm).1
    rcases List.mem_cons.mp h with h | h
    · cases h; simp [assocGet]
    · have := h1 _ h
      have hne : k ≠ a := by simp at this; omega
      simp [assocGet, hne, ih (List.pairwise_cons.mp hm).2 h]

/-- Canonical data are equal when every key reads the same. -/
theorem assoc_ext {α : Type} {m m' : Assoc α} (hm : m.wf) (hm' : m'.wf)
    (h : ∀ k, assocGet m k = assocGet m' k) : m = m' := by
  induction m generalizing m' with
  | nil =>
    cases m' with
    | nil => rfl
    | cons e m' => have := h e.1; simp [assocGet] at this
  | cons e m ih =>
    obtain ⟨a, v⟩ := e
    have h1 : ∀ y ∈ m, a < y.1 := (List.pairwise_cons.mp hm).1
    cases m' with
    | nil => have := h a; simp [assocGet] at this
    | cons e' m' =>
      obtain ⟨b, w⟩ := e'
      have h1' : ∀ y ∈ m', b < y.1 := (List.pairwise_cons.mp hm').1
      have hab : a = b := by
        rcases Nat.lt_trichotomy a b with hlt | he | hlt
        · have hg : assocGet ((b, w) :: m') a = some v := by rw [← h a]; simp [assocGet]
          rcases List.mem_cons.mp (assocGet_mem hg) with h2 | h2
          · cases h2; omega
          · have := h1' _ h2; simp at this; omega
        · exact he
        · have hg : assocGet ((a, v) :: m) b = some w := by rw [h b]; simp [assocGet]
          rcases List.mem_cons.mp (assocGet_mem hg) with h2 | h2
          · cases h2; omega
          · have := h1 _ h2; simp at this; omega
      subst hab
      have hvw : v = w := by have := h a; simpa [assocGet] using this
      subst hvw
      congr 1
      refine ih (List.pairwise_cons.mp hm).2 (List.pairwise_cons.mp hm').2 fun k => ?_
      by_cases hk : k = a
      · subst hk
        have n1 : assocGet m k = none := by
          cases hg : assocGet m k with
          | none => rfl
          | some x => have := h1 _ (assocGet_mem hg); simp at this
        have n2 : assocGet m' k = none := by
          cases hg : assocGet m' k with
          | none => rfl
          | some x => have := h1' _ (assocGet_mem hg); simp at this
        rw [n1, n2]
      · simpa [assocGet, hk] using h k

/-! ### Words -/

/-- The bytes after a word was stored. -/
theorem memByte_memSetWord (m : Memory) (addr a : Nat) (w : Word) :
    memByte (memSetWord m addr w) a
      = if addr ≤ a ∧ a < addr + 4 then some (wordByte w (a - addr)) else memByte m a := by
  simp only [memByte, memSetWord, assocGet_assocSet]
  by_cases h3 : a = addr + 3
  · subst h3; simp
  by_cases h2 : a = addr + 2
  · subst h2; simp
  by_cases h1 : a = addr + 1
  · subst h1; simp
  by_cases h0 : a = addr
  · subst h0; simp
  have : ¬ (addr ≤ a ∧ a < addr + 4) := by omega
  simp [h0, h1, h2, h3, this]

/-- R103: four bytes are the word they came from. -/
theorem wordByte_join (w : Word) : wordByte w 3 ++ wordByte w 2 ++ wordByte w 1 ++ wordByte w 0 = w := by
  simp only [wordByte]
  ext i hi
  simp only [BitVec.getElem_append, BitVec.getElem_extractLsb']
  split
  · simp only [Nat.mul_zero, Nat.zero_add]
    rw [BitVec.getLsbD_eq_getElem (by omega)]
  · split
    · rename_i h1 h2
      rw [BitVec.getLsbD_eq_getElem (by omega)]; congr 1; omega
    · split
      · rename_i h1 h2 h3
        rw [BitVec.getLsbD_eq_getElem (by omega)]; congr 1; omega
      · rename_i h1 h2 h3
        rw [BitVec.getLsbD_eq_getElem (by omega)]; congr 1; omega

/-- A word reads back as it was stored (R109). -/
@[simp] theorem memWord_memSetWord (m : Memory) (addr : Nat) (w : Word) :
    memWord (memSetWord m addr w) addr = some w := by
  have h0 : memByte (memSetWord m addr w) addr = some (wordByte w 0) := by simp [memByte_memSetWord]
  have h1 : memByte (memSetWord m addr w) (addr + 1) = some (wordByte w 1) := by simp [memByte_memSetWord]
  have h2 : memByte (memSetWord m addr w) (addr + 2) = some (wordByte w 2) := by simp [memByte_memSetWord]
  have h3 : memByte (memSetWord m addr w) (addr + 3) = some (wordByte w 3) := by simp [memByte_memSetWord]
  simp only [memWord, h0, h1, h2, h3, wordByte_join]

/-- A store leaves every word that does not overlap it. -/
theorem memWord_memSetWord_of_disjoint (m : Memory) (addr b : Nat) (w : Word)
    (h : b + 4 ≤ addr ∨ addr + 4 ≤ b) : memWord (memSetWord m addr w) b = memWord m b := by
  have hb : ∀ i, i < 4 → memByte (memSetWord m addr w) (b + i) = memByte m (b + i) := by
    intro i hi
    rw [memByte_memSetWord, if_neg (by omega)]
  have h0 : memByte (memSetWord m addr w) b = memByte m b := hb 0 (by omega)
  simp only [memWord, h0, hb 1 (by omega), hb 2 (by omega), hb 3 (by omega)]

/-- A store of a word keeps the canonical form. -/
theorem memSetWord_wf {m : Memory} (h : Memory.wf m) (addr : Nat) (w : Word) : Memory.wf (memSetWord m addr w) :=
  assocSet_wf (assocSet_wf (assocSet_wf (assocSet_wf h _ _) _ _) _ _) _ _

/-- A store of an aligned word inside the memory keeps everything the memory must be. -/
theorem memSetWord_ok {m : Memory} {size : Nat} (h : m.Ok size) {addr : Nat} (hal : addr % 4 = 0)
    (hin : addr + 4 ≤ size) (w : Word) : (memSetWord m addr w).Ok size := by
  refine ⟨memSetWord_wf h.canonical addr w, fun c hc => ?_, fun a b hab => ?_⟩
  · rcases mem_assocSet hc with rfl | hc
    · show addr + 3 < size; omega
    rcases mem_assocSet hc with rfl | hc
    · show addr + 2 < size; omega
    rcases mem_assocSet hc with rfl | hc
    · show addr + 1 < size; omega
    rcases mem_assocSet hc with rfl | hc
    · show addr < size; omega
    · exact h.inRange c hc
  · rw [memByte_memSetWord, memByte_memSetWord]
    by_cases ha : addr ≤ a ∧ a < addr + 4
    · have hb : addr ≤ b ∧ b < addr + 4 := by omega
      simp [ha, hb]
    · have hb : ¬ (addr ≤ b ∧ b < addr + 4) := by omega
      simp only [ha, hb, if_false]
      exact h.wholeWords a b hab

/-! ### Runs of words -/

/-- A run of stores leaves every byte outside the run. -/
theorem memByte_storeWords_of_outside (ws : List Word) (m : Memory) (addr a : Nat)
    (h : a < addr ∨ addr + 4 * ws.length ≤ a) : memByte (storeWords m addr ws) a = memByte m a := by
  induction ws generalizing m addr with
  | nil => rfl
  | cons w ws ih =>
    simp only [List.length_cons] at h
    rw [storeWords, ih _ _ (by omega), memByte_memSetWord, if_neg (by omega)]

/-- A run of stores leaves every word outside the run. -/
theorem memWord_storeWords_of_outside (ws : List Word) (m : Memory) (addr b : Nat)
    (h : b + 4 ≤ addr ∨ addr + 4 * ws.length ≤ b) : memWord (storeWords m addr ws) b = memWord m b := by
  induction ws generalizing m addr with
  | nil => rfl
  | cons w ws ih =>
    simp only [List.length_cons] at h
    rw [storeWords, ih _ _ (by omega), memWord_memSetWord_of_disjoint _ _ _ _ (by omega)]

/-- Each word of a run reads back as it was stored. -/
theorem memWord_storeWords (ws : List Word) (m : Memory) (addr i : Nat) (h : i < ws.length) :
    memWord (storeWords m addr ws) (addr + 4 * i) = some (coeff ws i) := by
  induction ws generalizing m addr i with
  | nil => simp at h
  | cons w ws ih =>
    cases i with
    | zero =>
      rw [storeWords, Nat.mul_zero, memWord_storeWords_of_outside _ _ _ _ (by omega)]
      exact memWord_memSetWord m addr w
    | succ i =>
      have := ih (memSetWord m addr w) (addr + 4) i (by simpa using h)
      rw [storeWords, show addr + 4 * (i + 1) = addr + 4 + 4 * i by ring, this]
      rfl

/-- A run of stores keeps the canonical form. -/
theorem storeWords_wf (ws : List Word) {m : Memory} (h : Memory.wf m) (addr : Nat) :
    Memory.wf (storeWords m addr ws) := by
  induction ws generalizing m addr with
  | nil => exact h
  | cons w ws ih => exact ih (memSetWord_wf h addr w) (addr + 4)

/-- An aligned run of stores inside the memory keeps everything the memory must be. -/
theorem storeWords_ok (ws : List Word) {m : Memory} {size : Nat} (h : m.Ok size) {addr : Nat}
    (hal : addr % 4 = 0) (hin : addr + 4 * ws.length ≤ size) : (storeWords m addr ws).Ok size := by
  induction ws generalizing m addr with
  | nil => exact h
  | cons w ws ih =>
    simp only [List.length_cons] at hin
    exact ih (memSetWord_ok h hal (by omega) w) (by omega) (by omega)

/-- An empty memory is in order. -/
theorem memory_nil_ok (size : Nat) : Memory.Ok [] size :=
  ⟨List.Pairwise.nil, by simp, by simp [memByte, assocGet]⟩

/-- The memories after power-on are canonical. -/
theorem reset_memory_wf : Memory.wf State.reset.imem ∧ Memory.wf State.reset.dmem :=
  ⟨List.Pairwise.nil, List.Pairwise.nil⟩

/-! ### Vectors -/

@[simp] theorem vec_length {α : Type} (n : Nat) (f : Nat → α) : (vec n f).length = n := by simp [vec]

/-- Entry `i` of a vector. -/
theorem vec_getElem? {α : Type} (n i : Nat) (f : Nat → α) : (vec n f)[i]? = if i < n then some (f i) else none := by
  simp only [vec, List.getElem?_map]
  split <;> simp_all

/-- Entry `i` of a vector, with a default. -/
theorem vec_getD {α : Type} (n i : Nat) (f : Nat → α) (x : α) : (vec n f).getD i x = if i < n then f i else x := by
  rw [List.getD_eq_getElem?_getD, vec_getElem?]; split <;> rfl

/-- Coefficient `i` of a vector of words. -/
theorem coeff_vec (n i : Nat) (f : Nat → Word) : coeff (vec n f) i = if i < n then f i else 0 := vec_getD ..

/-- Entry `i` of a vector of integers. -/
theorem icoeff_vec (n i : Nat) (f : Nat → Int) : icoeff (vec n f) i = if i < n then f i else 0 := vec_getD ..

/-- What a vector's entries are. -/
theorem mem_vec {α : Type} {n : Nat} {f : Nat → α} {x : α} : x ∈ vec n f ↔ ∃ i, i < n ∧ f i = x := by
  simp [vec]

/-- Vectors with the same entries are the same. -/
theorem vec_congr {α : Type} {n : Nat} {f g : Nat → α} (h : ∀ i, i < n → f i = g i) : vec n f = vec n g := by
  refine List.ext_getElem? fun i => ?_
  rw [vec_getElem?, vec_getElem?]
  split
  · rename_i hi; rw [h i hi]
  · rfl

/-- A list of length `n` is the vector of its coefficients. -/
theorem vec_coeff (c : List Word) : vec c.length (coeff c) = c := by
  refine List.ext_getElem? fun i => ?_
  rw [vec_getElem?]
  split
  · rename_i hi; simp [coeff, List.getD_eq_getElem?_getD, hi]
  · rename_i hi; simp [Nat.le_of_not_lt hi]

/-! ### Reading runs -/

@[simp] theorem loadWords_length (m : Memory) (k addr cnt : Nat) : (loadWords m k addr cnt).1.length = cnt := by
  simp [loadWords]

/-- A read never takes draws back. -/
theorem loadWords_le (m : Memory) (k addr cnt : Nat) : k ≤ (loadWords m k addr cnt).2 := by
  simp only [loadWords]; split <;> omega

/-- A read of a written run gives what was written and makes no draw. -/
theorem loadWords_written {m : Memory} {k addr cnt : Nat} {ws : List Word} (hl : ws.length = cnt)
    (h : ∀ i, i < cnt → memWord m (addr + 4 * i) = some (coeff ws i)) : loadWords m k addr cnt = (ws, k) := by
  subst hl
  have hs : spanWritten m addr ws.length = true := by
    simp only [spanWritten, List.all_eq_true, List.mem_range]
    intro i hi; rw [h i hi]; rfl
  rw [loadWords, if_pos hs]
  refine Prod.ext ?_ rfl
  refine Eq.trans (vec_congr fun i hi => ?_) (vec_coeff ws)
  rw [h i hi]; rfl

/-- A run reads back as it was stored. -/
theorem loadWords_storeWords (m : Memory) (k addr : Nat) (ws : List Word) :
    loadWords (storeWords m addr ws) k addr ws.length = (ws, k) :=
  loadWords_written rfl fun i hi => memWord_storeWords ws m addr i hi

end Sys2Proof.Machine
end

