-- ==== Sys2Proof/Laws/State.lean ====
section
/-! SUPPORT. Laws/State.lean: what each update of the state leaves in each field, one lemma per field per
update. No proof elsewhere needs to unfold a record update. -/

namespace Sys2Proof.Machine

/-! ### setS -/

@[simp] theorem State.setS_params (s : State) (d : SIdx) (v : Word) : (s.setS d v).params = s.params := by unfold State.setS; split <;> rfl
@[simp] theorem State.setS_pRegs (s : State) (d : SIdx) (v : Word) : (s.setS d v).pRegs = s.pRegs := by unfold State.setS; split <;> rfl
@[simp] theorem State.setS_fRegs (s : State) (d : SIdx) (v : Word) : (s.setS d v).fRegs = s.fRegs := by unfold State.setS; split <;> rfl
@[simp] theorem State.setS_lRegs (s : State) (d : SIdx) (v : Word) : (s.setS d v).lRegs = s.lRegs := by unfold State.setS; split <;> rfl
@[simp] theorem State.setS_rRegs (s : State) (d : SIdx) (v : Word) : (s.setS d v).rRegs = s.rRegs := by unfold State.setS; split <;> rfl
@[simp] theorem State.setS_bk (s : State) (d : SIdx) (v : Word) : (s.setS d v).bk = s.bk := by unfold State.setS; split <;> rfl
@[simp] theorem State.setS_keyL (s : State) (d : SIdx) (v : Word) : (s.setS d v).keyL = s.keyL := by unfold State.setS; split <;> rfl
@[simp] theorem State.setS_keyR (s : State) (d : SIdx) (v : Word) : (s.setS d v).keyR = s.keyR := by unfold State.setS; split <;> rfl
@[simp] theorem State.setS_pc (s : State) (d : SIdx) (v : Word) : (s.setS d v).pc = s.pc := by unfold State.setS; split <;> rfl
@[simp] theorem State.setS_runState (s : State) (d : SIdx) (v : Word) : (s.setS d v).runState = s.runState := by unfold State.setS; split <;> rfl
@[simp] theorem State.setS_csr (s : State) (d : SIdx) (v : Word) : (s.setS d v).csr = s.csr := by unfold State.setS; split <;> rfl
@[simp] theorem State.setS_startPc (s : State) (d : SIdx) (v : Word) : (s.setS d v).startPc = s.startPc := by unfold State.setS; split <;> rfl
@[simp] theorem State.setS_cause (s : State) (d : SIdx) (v : Word) : (s.setS d v).cause = s.cause := by unfold State.setS; split <;> rfl
@[simp] theorem State.setS_faultPc (s : State) (d : SIdx) (v : Word) : (s.setS d v).faultPc = s.faultPc := by unfold State.setS; split <;> rfl
@[simp] theorem State.setS_faultInfo (s : State) (d : SIdx) (v : Word) : (s.setS d v).faultInfo = s.faultInfo := by unfold State.setS; split <;> rfl
@[simp] theorem State.setS_irqPending (s : State) (d : SIdx) (v : Word) : (s.setS d v).irqPending = s.irqPending := by unfold State.setS; split <;> rfl
@[simp] theorem State.setS_irqEn (s : State) (d : SIdx) (v : Word) : (s.setS d v).irqEn = s.irqEn := by unfold State.setS; split <;> rfl
@[simp] theorem State.setS_imem (s : State) (d : SIdx) (v : Word) : (s.setS d v).imem = s.imem := by unfold State.setS; split <;> rfl
@[simp] theorem State.setS_dmem (s : State) (d : SIdx) (v : Word) : (s.setS d v).dmem = s.dmem := by unfold State.setS; split <;> rfl
@[simp] theorem State.setS_drawCtr (s : State) (d : SIdx) (v : Word) : (s.setS d v).drawCtr = s.drawCtr := by unfold State.setS; split <;> rfl
@[simp] theorem State.setS_hostIn (s : State) (d : SIdx) (v : Word) : (s.setS d v).hostIn = s.hostIn := by unfold State.setS; split <;> rfl
@[simp] theorem State.setS_hostOut (s : State) (d : SIdx) (v : Word) : (s.setS d v).hostOut = s.hostOut := by unfold State.setS; split <;> rfl
@[simp] theorem State.setS_sRegs (s : State) (d : SIdx) (v : Word) :
    (s.setS d v).sRegs = if d = 0 then s.sRegs else s.sRegs.set d (some v) := by
  unfold State.setS; split <;> rfl

/-! ### setP -/

@[simp] theorem State.setP_params (s : State) (d : PIdx) (c : List Word) : (s.setP d c).params = s.params := rfl
@[simp] theorem State.setP_sRegs (s : State) (d : PIdx) (c : List Word) : (s.setP d c).sRegs = s.sRegs := rfl
@[simp] theorem State.setP_pRegs (s : State) (d : PIdx) (c : List Word) : (s.setP d c).pRegs = s.pRegs.set d (some ⟨s.ringN, c⟩) := rfl
@[simp] theorem State.setP_fRegs (s : State) (d : PIdx) (c : List Word) : (s.setP d c).fRegs = s.fRegs := rfl
@[simp] theorem State.setP_lRegs (s : State) (d : PIdx) (c : List Word) : (s.setP d c).lRegs = s.lRegs := rfl
@[simp] theorem State.setP_rRegs (s : State) (d : PIdx) (c : List Word) : (s.setP d c).rRegs = s.rRegs := rfl
@[simp] theorem State.setP_bk (s : State) (d : PIdx) (c : List Word) : (s.setP d c).bk = s.bk := rfl
@[simp] theorem State.setP_keyL (s : State) (d : PIdx) (c : List Word) : (s.setP d c).keyL = s.keyL := rfl
@[simp] theorem State.setP_keyR (s : State) (d : PIdx) (c : List Word) : (s.setP d c).keyR = s.keyR := rfl
@[simp] theorem State.setP_pc (s : State) (d : PIdx) (c : List Word) : (s.setP d c).pc = s.pc := rfl
@[simp] theorem State.setP_runState (s : State) (d : PIdx) (c : List Word) : (s.setP d c).runState = s.runState := rfl
@[simp] theorem State.setP_csr (s : State) (d : PIdx) (c : List Word) : (s.setP d c).csr = s.csr := rfl
@[simp] theorem State.setP_startPc (s : State) (d : PIdx) (c : List Word) : (s.setP d c).startPc = s.startPc := rfl
@[simp] theorem State.setP_cause (s : State) (d : PIdx) (c : List Word) : (s.setP d c).cause = s.cause := rfl
@[simp] theorem State.setP_faultPc (s : State) (d : PIdx) (c : List Word) : (s.setP d c).faultPc = s.faultPc := rfl
@[simp] theorem State.setP_faultInfo (s : State) (d : PIdx) (c : List Word) : (s.setP d c).faultInfo = s.faultInfo := rfl
@[simp] theorem State.setP_irqPending (s : State) (d : PIdx) (c : List Word) : (s.setP d c).irqPending = s.irqPending := rfl
@[simp] theorem State.setP_irqEn (s : State) (d : PIdx) (c : List Word) : (s.setP d c).irqEn = s.irqEn := rfl
@[simp] theorem State.setP_imem (s : State) (d : PIdx) (c : List Word) : (s.setP d c).imem = s.imem := rfl
@[simp] theorem State.setP_dmem (s : State) (d : PIdx) (c : List Word) : (s.setP d c).dmem = s.dmem := rfl
@[simp] theorem State.setP_drawCtr (s : State) (d : PIdx) (c : List Word) : (s.setP d c).drawCtr = s.drawCtr := rfl
@[simp] theorem State.setP_hostIn (s : State) (d : PIdx) (c : List Word) : (s.setP d c).hostIn = s.hostIn := rfl
@[simp] theorem State.setP_hostOut (s : State) (d : PIdx) (c : List Word) : (s.setP d c).hostOut = s.hostOut := rfl

/-! ### setF -/

@[simp] theorem State.setF_params (s : State) (d : FIdx) (v : List Int) (cls : ErrClass) : (s.setF d v cls).params = s.params := rfl
@[simp] theorem State.setF_sRegs (s : State) (d : FIdx) (v : List Int) (cls : ErrClass) : (s.setF d v cls).sRegs = s.sRegs := rfl
@[simp] theorem State.setF_pRegs (s : State) (d : FIdx) (v : List Int) (cls : ErrClass) : (s.setF d v cls).pRegs = s.pRegs := rfl
@[simp] theorem State.setF_fRegs (s : State) (d : FIdx) (v : List Int) (cls : ErrClass) : (s.setF d v cls).fRegs = s.fRegs.set d (some ⟨s.ringN, v, cls⟩) := rfl
@[simp] theorem State.setF_lRegs (s : State) (d : FIdx) (v : List Int) (cls : ErrClass) : (s.setF d v cls).lRegs = s.lRegs := rfl
@[simp] theorem State.setF_rRegs (s : State) (d : FIdx) (v : List Int) (cls : ErrClass) : (s.setF d v cls).rRegs = s.rRegs := rfl
@[simp] theorem State.setF_bk (s : State) (d : FIdx) (v : List Int) (cls : ErrClass) : (s.setF d v cls).bk = s.bk := rfl
@[simp] theorem State.setF_keyL (s : State) (d : FIdx) (v : List Int) (cls : ErrClass) : (s.setF d v cls).keyL = s.keyL := rfl
@[simp] theorem State.setF_keyR (s : State) (d : FIdx) (v : List Int) (cls : ErrClass) : (s.setF d v cls).keyR = s.keyR := rfl
@[simp] theorem State.setF_pc (s : State) (d : FIdx) (v : List Int) (cls : ErrClass) : (s.setF d v cls).pc = s.pc := rfl
@[simp] theorem State.setF_runState (s : State) (d : FIdx) (v : List Int) (cls : ErrClass) : (s.setF d v cls).runState = s.runState := rfl
@[simp] theorem State.setF_csr (s : State) (d : FIdx) (v : List Int) (cls : ErrClass) : (s.setF d v cls).csr = s.csr := rfl
@[simp] theorem State.setF_startPc (s : State) (d : FIdx) (v : List Int) (cls : ErrClass) : (s.setF d v cls).startPc = s.startPc := rfl
@[simp] theorem State.setF_cause (s : State) (d : FIdx) (v : List Int) (cls : ErrClass) : (s.setF d v cls).cause = s.cause := rfl
@[simp] theorem State.setF_faultPc (s : State) (d : FIdx) (v : List Int) (cls : ErrClass) : (s.setF d v cls).faultPc = s.faultPc := rfl
@[simp] theorem State.setF_faultInfo (s : State) (d : FIdx) (v : List Int) (cls : ErrClass) : (s.setF d v cls).faultInfo = s.faultInfo := rfl
@[simp] theorem State.setF_irqPending (s : State) (d : FIdx) (v : List Int) (cls : ErrClass) : (s.setF d v cls).irqPending = s.irqPending := rfl
@[simp] theorem State.setF_irqEn (s : State) (d : FIdx) (v : List Int) (cls : ErrClass) : (s.setF d v cls).irqEn = s.irqEn := rfl
@[simp] theorem State.setF_imem (s : State) (d : FIdx) (v : List Int) (cls : ErrClass) : (s.setF d v cls).imem = s.imem := rfl
@[simp] theorem State.setF_dmem (s : State) (d : FIdx) (v : List Int) (cls : ErrClass) : (s.setF d v cls).dmem = s.dmem := rfl
@[simp] theorem State.setF_drawCtr (s : State) (d : FIdx) (v : List Int) (cls : ErrClass) : (s.setF d v cls).drawCtr = s.drawCtr := rfl
@[simp] theorem State.setF_hostIn (s : State) (d : FIdx) (v : List Int) (cls : ErrClass) : (s.setF d v cls).hostIn = s.hostIn := rfl
@[simp] theorem State.setF_hostOut (s : State) (d : FIdx) (v : List Int) (cls : ErrClass) : (s.setF d v cls).hostOut = s.hostOut := rfl

/-! ### setL -/

@[simp] theorem State.setL_params (s : State) (d : LIdx) (x : LReg) : (s.setL d x).params = s.params := rfl
@[simp] theorem State.setL_sRegs (s : State) (d : LIdx) (x : LReg) : (s.setL d x).sRegs = s.sRegs := rfl
@[simp] theorem State.setL_pRegs (s : State) (d : LIdx) (x : LReg) : (s.setL d x).pRegs = s.pRegs := rfl
@[simp] theorem State.setL_fRegs (s : State) (d : LIdx) (x : LReg) : (s.setL d x).fRegs = s.fRegs := rfl
@[simp] theorem State.setL_lRegs (s : State) (d : LIdx) (x : LReg) : (s.setL d x).lRegs = s.lRegs.set d (some x) := rfl
@[simp] theorem State.setL_rRegs (s : State) (d : LIdx) (x : LReg) : (s.setL d x).rRegs = s.rRegs := rfl
@[simp] theorem State.setL_bk (s : State) (d : LIdx) (x : LReg) : (s.setL d x).bk = s.bk := rfl
@[simp] theorem State.setL_keyL (s : State) (d : LIdx) (x : LReg) : (s.setL d x).keyL = s.keyL := rfl
@[simp] theorem State.setL_keyR (s : State) (d : LIdx) (x : LReg) : (s.setL d x).keyR = s.keyR := rfl
@[simp] theorem State.setL_pc (s : State) (d : LIdx) (x : LReg) : (s.setL d x).pc = s.pc := rfl
@[simp] theorem State.setL_runState (s : State) (d : LIdx) (x : LReg) : (s.setL d x).runState = s.runState := rfl
@[simp] theorem State.setL_csr (s : State) (d : LIdx) (x : LReg) : (s.setL d x).csr = s.csr := rfl
@[simp] theorem State.setL_startPc (s : State) (d : LIdx) (x : LReg) : (s.setL d x).startPc = s.startPc := rfl
@[simp] theorem State.setL_cause (s : State) (d : LIdx) (x : LReg) : (s.setL d x).cause = s.cause := rfl
@[simp] theorem State.setL_faultPc (s : State) (d : LIdx) (x : LReg) : (s.setL d x).faultPc = s.faultPc := rfl
@[simp] theorem State.setL_faultInfo (s : State) (d : LIdx) (x : LReg) : (s.setL d x).faultInfo = s.faultInfo := rfl
@[simp] theorem State.setL_irqPending (s : State) (d : LIdx) (x : LReg) : (s.setL d x).irqPending = s.irqPending := rfl
@[simp] theorem State.setL_irqEn (s : State) (d : LIdx) (x : LReg) : (s.setL d x).irqEn = s.irqEn := rfl
@[simp] theorem State.setL_imem (s : State) (d : LIdx) (x : LReg) : (s.setL d x).imem = s.imem := rfl
@[simp] theorem State.setL_dmem (s : State) (d : LIdx) (x : LReg) : (s.setL d x).dmem = s.dmem := rfl
@[simp] theorem State.setL_drawCtr (s : State) (d : LIdx) (x : LReg) : (s.setL d x).drawCtr = s.drawCtr := rfl
@[simp] theorem State.setL_hostIn (s : State) (d : LIdx) (x : LReg) : (s.setL d x).hostIn = s.hostIn := rfl
@[simp] theorem State.setL_hostOut (s : State) (d : LIdx) (x : LReg) : (s.setL d x).hostOut = s.hostOut := rfl

/-! ### setR -/

@[simp] theorem State.setR_params (s : State) (d : RIdx) (x : Rlwe) : (s.setR d x).params = s.params := rfl
@[simp] theorem State.setR_sRegs (s : State) (d : RIdx) (x : Rlwe) : (s.setR d x).sRegs = s.sRegs := rfl
@[simp] theorem State.setR_pRegs (s : State) (d : RIdx) (x : Rlwe) : (s.setR d x).pRegs = s.pRegs := rfl
@[simp] theorem State.setR_fRegs (s : State) (d : RIdx) (x : Rlwe) : (s.setR d x).fRegs = s.fRegs := rfl
@[simp] theorem State.setR_lRegs (s : State) (d : RIdx) (x : Rlwe) : (s.setR d x).lRegs = s.lRegs := rfl
@[simp] theorem State.setR_rRegs (s : State) (d : RIdx) (x : Rlwe) : (s.setR d x).rRegs = s.rRegs.set d (some ⟨s.ringN, s.rankK, x⟩) := rfl
@[simp] theorem State.setR_bk (s : State) (d : RIdx) (x : Rlwe) : (s.setR d x).bk = s.bk := rfl
@[simp] theorem State.setR_keyL (s : State) (d : RIdx) (x : Rlwe) : (s.setR d x).keyL = s.keyL := rfl
@[simp] theorem State.setR_keyR (s : State) (d : RIdx) (x : Rlwe) : (s.setR d x).keyR = s.keyR := rfl
@[simp] theorem State.setR_pc (s : State) (d : RIdx) (x : Rlwe) : (s.setR d x).pc = s.pc := rfl
@[simp] theorem State.setR_runState (s : State) (d : RIdx) (x : Rlwe) : (s.setR d x).runState = s.runState := rfl
@[simp] theorem State.setR_csr (s : State) (d : RIdx) (x : Rlwe) : (s.setR d x).csr = s.csr := rfl
@[simp] theorem State.setR_startPc (s : State) (d : RIdx) (x : Rlwe) : (s.setR d x).startPc = s.startPc := rfl
@[simp] theorem State.setR_cause (s : State) (d : RIdx) (x : Rlwe) : (s.setR d x).cause = s.cause := rfl
@[simp] theorem State.setR_faultPc (s : State) (d : RIdx) (x : Rlwe) : (s.setR d x).faultPc = s.faultPc := rfl
@[simp] theorem State.setR_faultInfo (s : State) (d : RIdx) (x : Rlwe) : (s.setR d x).faultInfo = s.faultInfo := rfl
@[simp] theorem State.setR_irqPending (s : State) (d : RIdx) (x : Rlwe) : (s.setR d x).irqPending = s.irqPending := rfl
@[simp] theorem State.setR_irqEn (s : State) (d : RIdx) (x : Rlwe) : (s.setR d x).irqEn = s.irqEn := rfl
@[simp] theorem State.setR_imem (s : State) (d : RIdx) (x : Rlwe) : (s.setR d x).imem = s.imem := rfl
@[simp] theorem State.setR_dmem (s : State) (d : RIdx) (x : Rlwe) : (s.setR d x).dmem = s.dmem := rfl
@[simp] theorem State.setR_drawCtr (s : State) (d : RIdx) (x : Rlwe) : (s.setR d x).drawCtr = s.drawCtr := rfl
@[simp] theorem State.setR_hostIn (s : State) (d : RIdx) (x : Rlwe) : (s.setR d x).hostIn = s.hostIn := rfl
@[simp] theorem State.setR_hostOut (s : State) (d : RIdx) (x : Rlwe) : (s.setR d x).hostOut = s.hostOut := rfl

/-! ### setBk -/

@[simp] theorem State.setBk_params (s : State) (slot : Nat) (rows : List Rlwe) : (s.setBk slot rows).params = s.params := rfl
@[simp] theorem State.setBk_sRegs (s : State) (slot : Nat) (rows : List Rlwe) : (s.setBk slot rows).sRegs = s.sRegs := rfl
@[simp] theorem State.setBk_pRegs (s : State) (slot : Nat) (rows : List Rlwe) : (s.setBk slot rows).pRegs = s.pRegs := rfl
@[simp] theorem State.setBk_fRegs (s : State) (slot : Nat) (rows : List Rlwe) : (s.setBk slot rows).fRegs = s.fRegs := rfl
@[simp] theorem State.setBk_lRegs (s : State) (slot : Nat) (rows : List Rlwe) : (s.setBk slot rows).lRegs = s.lRegs := rfl
@[simp] theorem State.setBk_rRegs (s : State) (slot : Nat) (rows : List Rlwe) : (s.setBk slot rows).rRegs = s.rRegs := rfl
@[simp] theorem State.setBk_bk (s : State) (slot : Nat) (rows : List Rlwe) : (s.setBk slot rows).bk = assocSet s.bk slot ⟨s.ringN, s.rankK, s.gadL, s.gadBits, rows⟩ := rfl
@[simp] theorem State.setBk_keyL (s : State) (slot : Nat) (rows : List Rlwe) : (s.setBk slot rows).keyL = s.keyL := rfl
@[simp] theorem State.setBk_keyR (s : State) (slot : Nat) (rows : List Rlwe) : (s.setBk slot rows).keyR = s.keyR := rfl
@[simp] theorem State.setBk_pc (s : State) (slot : Nat) (rows : List Rlwe) : (s.setBk slot rows).pc = s.pc := rfl
@[simp] theorem State.setBk_runState (s : State) (slot : Nat) (rows : List Rlwe) : (s.setBk slot rows).runState = s.runState := rfl
@[simp] theorem State.setBk_csr (s : State) (slot : Nat) (rows : List Rlwe) : (s.setBk slot rows).csr = s.csr := rfl
@[simp] theorem State.setBk_startPc (s : State) (slot : Nat) (rows : List Rlwe) : (s.setBk slot rows).startPc = s.startPc := rfl
@[simp] theorem State.setBk_cause (s : State) (slot : Nat) (rows : List Rlwe) : (s.setBk slot rows).cause = s.cause := rfl
@[simp] theorem State.setBk_faultPc (s : State) (slot : Nat) (rows : List Rlwe) : (s.setBk slot rows).faultPc = s.faultPc := rfl
@[simp] theorem State.setBk_faultInfo (s : State) (slot : Nat) (rows : List Rlwe) : (s.setBk slot rows).faultInfo = s.faultInfo := rfl
@[simp] theorem State.setBk_irqPending (s : State) (slot : Nat) (rows : List Rlwe) : (s.setBk slot rows).irqPending = s.irqPending := rfl
@[simp] theorem State.setBk_irqEn (s : State) (slot : Nat) (rows : List Rlwe) : (s.setBk slot rows).irqEn = s.irqEn := rfl
@[simp] theorem State.setBk_imem (s : State) (slot : Nat) (rows : List Rlwe) : (s.setBk slot rows).imem = s.imem := rfl
@[simp] theorem State.setBk_dmem (s : State) (slot : Nat) (rows : List Rlwe) : (s.setBk slot rows).dmem = s.dmem := rfl
@[simp] theorem State.setBk_drawCtr (s : State) (slot : Nat) (rows : List Rlwe) : (s.setBk slot rows).drawCtr = s.drawCtr := rfl
@[simp] theorem State.setBk_hostIn (s : State) (slot : Nat) (rows : List Rlwe) : (s.setBk slot rows).hostIn = s.hostIn := rfl
@[simp] theorem State.setBk_hostOut (s : State) (slot : Nat) (rows : List Rlwe) : (s.setBk slot rows).hostOut = s.hostOut := rfl

/-! ### setKeyL -/

@[simp] theorem State.setKeyL_params (s : State) (bits : List Bool) : (s.setKeyL bits).params = s.params := rfl
@[simp] theorem State.setKeyL_sRegs (s : State) (bits : List Bool) : (s.setKeyL bits).sRegs = s.sRegs := rfl
@[simp] theorem State.setKeyL_pRegs (s : State) (bits : List Bool) : (s.setKeyL bits).pRegs = s.pRegs := rfl
@[simp] theorem State.setKeyL_fRegs (s : State) (bits : List Bool) : (s.setKeyL bits).fRegs = s.fRegs := rfl
@[simp] theorem State.setKeyL_lRegs (s : State) (bits : List Bool) : (s.setKeyL bits).lRegs = s.lRegs := rfl
@[simp] theorem State.setKeyL_rRegs (s : State) (bits : List Bool) : (s.setKeyL bits).rRegs = s.rRegs := rfl
@[simp] theorem State.setKeyL_bk (s : State) (bits : List Bool) : (s.setKeyL bits).bk = s.bk := rfl
@[simp] theorem State.setKeyL_keyL (s : State) (bits : List Bool) : (s.setKeyL bits).keyL = some ⟨s.lweN, bits⟩ := rfl
@[simp] theorem State.setKeyL_keyR (s : State) (bits : List Bool) : (s.setKeyL bits).keyR = s.keyR := rfl
@[simp] theorem State.setKeyL_pc (s : State) (bits : List Bool) : (s.setKeyL bits).pc = s.pc := rfl
@[simp] theorem State.setKeyL_runState (s : State) (bits : List Bool) : (s.setKeyL bits).runState = s.runState := rfl
@[simp] theorem State.setKeyL_csr (s : State) (bits : List Bool) : (s.setKeyL bits).csr = s.csr := rfl
@[simp] theorem State.setKeyL_startPc (s : State) (bits : List Bool) : (s.setKeyL bits).startPc = s.startPc := rfl
@[simp] theorem State.setKeyL_cause (s : State) (bits : List Bool) : (s.setKeyL bits).cause = s.cause := rfl
@[simp] theorem State.setKeyL_faultPc (s : State) (bits : List Bool) : (s.setKeyL bits).faultPc = s.faultPc := rfl
@[simp] theorem State.setKeyL_faultInfo (s : State) (bits : List Bool) : (s.setKeyL bits).faultInfo = s.faultInfo := rfl
@[simp] theorem State.setKeyL_irqPending (s : State) (bits : List Bool) : (s.setKeyL bits).irqPending = s.irqPending := rfl
@[simp] theorem State.setKeyL_irqEn (s : State) (bits : List Bool) : (s.setKeyL bits).irqEn = s.irqEn := rfl
@[simp] theorem State.setKeyL_imem (s : State) (bits : List Bool) : (s.setKeyL bits).imem = s.imem := rfl
@[simp] theorem State.setKeyL_dmem (s : State) (bits : List Bool) : (s.setKeyL bits).dmem = s.dmem := rfl
@[simp] theorem State.setKeyL_drawCtr (s : State) (bits : List Bool) : (s.setKeyL bits).drawCtr = s.drawCtr := rfl
@[simp] theorem State.setKeyL_hostIn (s : State) (bits : List Bool) : (s.setKeyL bits).hostIn = s.hostIn := rfl
@[simp] theorem State.setKeyL_hostOut (s : State) (bits : List Bool) : (s.setKeyL bits).hostOut = s.hostOut := rfl

/-! ### setKeyR -/

@[simp] theorem State.setKeyR_params (s : State) (polys : List (List Bool)) : (s.setKeyR polys).params = s.params := rfl
@[simp] theorem State.setKeyR_sRegs (s : State) (polys : List (List Bool)) : (s.setKeyR polys).sRegs = s.sRegs := rfl
@[simp] theorem State.setKeyR_pRegs (s : State) (polys : List (List Bool)) : (s.setKeyR polys).pRegs = s.pRegs := rfl
@[simp] theorem State.setKeyR_fRegs (s : State) (polys : List (List Bool)) : (s.setKeyR polys).fRegs = s.fRegs := rfl
@[simp] theorem State.setKeyR_lRegs (s : State) (polys : List (List Bool)) : (s.setKeyR polys).lRegs = s.lRegs := rfl
@[simp] theorem State.setKeyR_rRegs (s : State) (polys : List (List Bool)) : (s.setKeyR polys).rRegs = s.rRegs := rfl
@[simp] theorem State.setKeyR_bk (s : State) (polys : List (List Bool)) : (s.setKeyR polys).bk = s.bk := rfl
@[simp] theorem State.setKeyR_keyL (s : State) (polys : List (List Bool)) : (s.setKeyR polys).keyL = s.keyL := rfl
@[simp] theorem State.setKeyR_keyR (s : State) (polys : List (List Bool)) : (s.setKeyR polys).keyR = some ⟨s.ringN, s.rankK, polys⟩ := rfl
@[simp] theorem State.setKeyR_pc (s : State) (polys : List (List Bool)) : (s.setKeyR polys).pc = s.pc := rfl
@[simp] theorem State.setKeyR_runState (s : State) (polys : List (List Bool)) : (s.setKeyR polys).runState = s.runState := rfl
@[simp] theorem State.setKeyR_csr (s : State) (polys : List (List Bool)) : (s.setKeyR polys).csr = s.csr := rfl
@[simp] theorem State.setKeyR_startPc (s : State) (polys : List (List Bool)) : (s.setKeyR polys).startPc = s.startPc := rfl
@[simp] theorem State.setKeyR_cause (s : State) (polys : List (List Bool)) : (s.setKeyR polys).cause = s.cause := rfl
@[simp] theorem State.setKeyR_faultPc (s : State) (polys : List (List Bool)) : (s.setKeyR polys).faultPc = s.faultPc := rfl
@[simp] theorem State.setKeyR_faultInfo (s : State) (polys : List (List Bool)) : (s.setKeyR polys).faultInfo = s.faultInfo := rfl
@[simp] theorem State.setKeyR_irqPending (s : State) (polys : List (List Bool)) : (s.setKeyR polys).irqPending = s.irqPending := rfl
@[simp] theorem State.setKeyR_irqEn (s : State) (polys : List (List Bool)) : (s.setKeyR polys).irqEn = s.irqEn := rfl
@[simp] theorem State.setKeyR_imem (s : State) (polys : List (List Bool)) : (s.setKeyR polys).imem = s.imem := rfl
@[simp] theorem State.setKeyR_dmem (s : State) (polys : List (List Bool)) : (s.setKeyR polys).dmem = s.dmem := rfl
@[simp] theorem State.setKeyR_drawCtr (s : State) (polys : List (List Bool)) : (s.setKeyR polys).drawCtr = s.drawCtr := rfl
@[simp] theorem State.setKeyR_hostIn (s : State) (polys : List (List Bool)) : (s.setKeyR polys).hostIn = s.hostIn := rfl
@[simp] theorem State.setKeyR_hostOut (s : State) (polys : List (List Bool)) : (s.setKeyR polys).hostOut = s.hostOut := rfl

/-! ### setCsr -/

@[simp] theorem State.setCsr_params (s : State) (c : Nat) (v : Word) : (s.setCsr c v).params = s.params := rfl
@[simp] theorem State.setCsr_sRegs (s : State) (c : Nat) (v : Word) : (s.setCsr c v).sRegs = s.sRegs := rfl
@[simp] theorem State.setCsr_pRegs (s : State) (c : Nat) (v : Word) : (s.setCsr c v).pRegs = s.pRegs := rfl
@[simp] theorem State.setCsr_fRegs (s : State) (c : Nat) (v : Word) : (s.setCsr c v).fRegs = s.fRegs := rfl
@[simp] theorem State.setCsr_lRegs (s : State) (c : Nat) (v : Word) : (s.setCsr c v).lRegs = s.lRegs := rfl
@[simp] theorem State.setCsr_rRegs (s : State) (c : Nat) (v : Word) : (s.setCsr c v).rRegs = s.rRegs := rfl
@[simp] theorem State.setCsr_bk (s : State) (c : Nat) (v : Word) : (s.setCsr c v).bk = s.bk := rfl
@[simp] theorem State.setCsr_keyL (s : State) (c : Nat) (v : Word) : (s.setCsr c v).keyL = s.keyL := rfl
@[simp] theorem State.setCsr_keyR (s : State) (c : Nat) (v : Word) : (s.setCsr c v).keyR = s.keyR := rfl
@[simp] theorem State.setCsr_pc (s : State) (c : Nat) (v : Word) : (s.setCsr c v).pc = s.pc := rfl
@[simp] theorem State.setCsr_runState (s : State) (c : Nat) (v : Word) : (s.setCsr c v).runState = s.runState := rfl
@[simp] theorem State.setCsr_csr (s : State) (c : Nat) (v : Word) : (s.setCsr c v).csr = s.csr.put c v := rfl
@[simp] theorem State.setCsr_startPc (s : State) (c : Nat) (v : Word) : (s.setCsr c v).startPc = s.startPc := rfl
@[simp] theorem State.setCsr_cause (s : State) (c : Nat) (v : Word) : (s.setCsr c v).cause = s.cause := rfl
@[simp] theorem State.setCsr_faultPc (s : State) (c : Nat) (v : Word) : (s.setCsr c v).faultPc = s.faultPc := rfl
@[simp] theorem State.setCsr_faultInfo (s : State) (c : Nat) (v : Word) : (s.setCsr c v).faultInfo = s.faultInfo := rfl
@[simp] theorem State.setCsr_irqPending (s : State) (c : Nat) (v : Word) : (s.setCsr c v).irqPending = s.irqPending := rfl
@[simp] theorem State.setCsr_irqEn (s : State) (c : Nat) (v : Word) : (s.setCsr c v).irqEn = s.irqEn := rfl
@[simp] theorem State.setCsr_imem (s : State) (c : Nat) (v : Word) : (s.setCsr c v).imem = s.imem := rfl
@[simp] theorem State.setCsr_dmem (s : State) (c : Nat) (v : Word) : (s.setCsr c v).dmem = s.dmem := rfl
@[simp] theorem State.setCsr_drawCtr (s : State) (c : Nat) (v : Word) : (s.setCsr c v).drawCtr = s.drawCtr := rfl
@[simp] theorem State.setCsr_hostIn (s : State) (c : Nat) (v : Word) : (s.setCsr c v).hostIn = s.hostIn := rfl
@[simp] theorem State.setCsr_hostOut (s : State) (c : Nat) (v : Word) : (s.setCsr c v).hostOut = s.hostOut := rfl

/-! ### store -/

@[simp] theorem State.store_params (s : State) (addr : Nat) (ws : List Word) : (s.store addr ws).params = s.params := rfl
@[simp] theorem State.store_sRegs (s : State) (addr : Nat) (ws : List Word) : (s.store addr ws).sRegs = s.sRegs := rfl
@[simp] theorem State.store_pRegs (s : State) (addr : Nat) (ws : List Word) : (s.store addr ws).pRegs = s.pRegs := rfl
@[simp] theorem State.store_fRegs (s : State) (addr : Nat) (ws : List Word) : (s.store addr ws).fRegs = s.fRegs := rfl
@[simp] theorem State.store_lRegs (s : State) (addr : Nat) (ws : List Word) : (s.store addr ws).lRegs = s.lRegs := rfl
@[simp] theorem State.store_rRegs (s : State) (addr : Nat) (ws : List Word) : (s.store addr ws).rRegs = s.rRegs := rfl
@[simp] theorem State.store_bk (s : State) (addr : Nat) (ws : List Word) : (s.store addr ws).bk = s.bk := rfl
@[simp] theorem State.store_keyL (s : State) (addr : Nat) (ws : List Word) : (s.store addr ws).keyL = s.keyL := rfl
@[simp] theorem State.store_keyR (s : State) (addr : Nat) (ws : List Word) : (s.store addr ws).keyR = s.keyR := rfl
@[simp] theorem State.store_pc (s : State) (addr : Nat) (ws : List Word) : (s.store addr ws).pc = s.pc := rfl
@[simp] theorem State.store_runState (s : State) (addr : Nat) (ws : List Word) : (s.store addr ws).runState = s.runState := rfl
@[simp] theorem State.store_csr (s : State) (addr : Nat) (ws : List Word) : (s.store addr ws).csr = s.csr := rfl
@[simp] theorem State.store_startPc (s : State) (addr : Nat) (ws : List Word) : (s.store addr ws).startPc = s.startPc := rfl
@[simp] theorem State.store_cause (s : State) (addr : Nat) (ws : List Word) : (s.store addr ws).cause = s.cause := rfl
@[simp] theorem State.store_faultPc (s : State) (addr : Nat) (ws : List Word) : (s.store addr ws).faultPc = s.faultPc := rfl
@[simp] theorem State.store_faultInfo (s : State) (addr : Nat) (ws : List Word) : (s.store addr ws).faultInfo = s.faultInfo := rfl
@[simp] theorem State.store_irqPending (s : State) (addr : Nat) (ws : List Word) : (s.store addr ws).irqPending = s.irqPending := rfl
@[simp] theorem State.store_irqEn (s : State) (addr : Nat) (ws : List Word) : (s.store addr ws).irqEn = s.irqEn := rfl
@[simp] theorem State.store_imem (s : State) (addr : Nat) (ws : List Word) : (s.store addr ws).imem = s.imem := rfl
@[simp] theorem State.store_dmem (s : State) (addr : Nat) (ws : List Word) : (s.store addr ws).dmem = storeWords s.dmem addr ws := rfl
@[simp] theorem State.store_drawCtr (s : State) (addr : Nat) (ws : List Word) : (s.store addr ws).drawCtr = s.drawCtr := rfl
@[simp] theorem State.store_hostIn (s : State) (addr : Nat) (ws : List Word) : (s.store addr ws).hostIn = s.hostIn := rfl
@[simp] theorem State.store_hostOut (s : State) (addr : Nat) (ws : List Word) : (s.store addr ws).hostOut = s.hostOut := rfl

/-! ### advance -/

@[simp] theorem State.advance_params (s : State) : (s.advance).params = s.params := rfl
@[simp] theorem State.advance_sRegs (s : State) : (s.advance).sRegs = s.sRegs := rfl
@[simp] theorem State.advance_pRegs (s : State) : (s.advance).pRegs = s.pRegs := rfl
@[simp] theorem State.advance_fRegs (s : State) : (s.advance).fRegs = s.fRegs := rfl
@[simp] theorem State.advance_lRegs (s : State) : (s.advance).lRegs = s.lRegs := rfl
@[simp] theorem State.advance_rRegs (s : State) : (s.advance).rRegs = s.rRegs := rfl
@[simp] theorem State.advance_bk (s : State) : (s.advance).bk = s.bk := rfl
@[simp] theorem State.advance_keyL (s : State) : (s.advance).keyL = s.keyL := rfl
@[simp] theorem State.advance_keyR (s : State) : (s.advance).keyR = s.keyR := rfl
@[simp] theorem State.advance_pc (s : State) : (s.advance).pc = s.pc + 8 := rfl
@[simp] theorem State.advance_runState (s : State) : (s.advance).runState = s.runState := rfl
@[simp] theorem State.advance_csr (s : State) : (s.advance).csr = s.csr := rfl
@[simp] theorem State.advance_startPc (s : State) : (s.advance).startPc = s.startPc := rfl
@[simp] theorem State.advance_cause (s : State) : (s.advance).cause = s.cause := rfl
@[simp] theorem State.advance_faultPc (s : State) : (s.advance).faultPc = s.faultPc := rfl
@[simp] theorem State.advance_faultInfo (s : State) : (s.advance).faultInfo = s.faultInfo := rfl
@[simp] theorem State.advance_irqPending (s : State) : (s.advance).irqPending = s.irqPending := rfl
@[simp] theorem State.advance_irqEn (s : State) : (s.advance).irqEn = s.irqEn := rfl
@[simp] theorem State.advance_imem (s : State) : (s.advance).imem = s.imem := rfl
@[simp] theorem State.advance_dmem (s : State) : (s.advance).dmem = s.dmem := rfl
@[simp] theorem State.advance_drawCtr (s : State) : (s.advance).drawCtr = s.drawCtr := rfl
@[simp] theorem State.advance_hostIn (s : State) : (s.advance).hostIn = s.hostIn := rfl
@[simp] theorem State.advance_hostOut (s : State) : (s.advance).hostOut = s.hostOut := rfl

/-! ### jump -/

@[simp] theorem State.jump_params (s : State) (target : Word) : (s.jump target).params = s.params := rfl
@[simp] theorem State.jump_sRegs (s : State) (target : Word) : (s.jump target).sRegs = s.sRegs := rfl
@[simp] theorem State.jump_pRegs (s : State) (target : Word) : (s.jump target).pRegs = s.pRegs := rfl
@[simp] theorem State.jump_fRegs (s : State) (target : Word) : (s.jump target).fRegs = s.fRegs := rfl
@[simp] theorem State.jump_lRegs (s : State) (target : Word) : (s.jump target).lRegs = s.lRegs := rfl
@[simp] theorem State.jump_rRegs (s : State) (target : Word) : (s.jump target).rRegs = s.rRegs := rfl
@[simp] theorem State.jump_bk (s : State) (target : Word) : (s.jump target).bk = s.bk := rfl
@[simp] theorem State.jump_keyL (s : State) (target : Word) : (s.jump target).keyL = s.keyL := rfl
@[simp] theorem State.jump_keyR (s : State) (target : Word) : (s.jump target).keyR = s.keyR := rfl
@[simp] theorem State.jump_pc (s : State) (target : Word) : (s.jump target).pc = target := rfl
@[simp] theorem State.jump_runState (s : State) (target : Word) : (s.jump target).runState = s.runState := rfl
@[simp] theorem State.jump_csr (s : State) (target : Word) : (s.jump target).csr = s.csr := rfl
@[simp] theorem State.jump_startPc (s : State) (target : Word) : (s.jump target).startPc = s.startPc := rfl
@[simp] theorem State.jump_cause (s : State) (target : Word) : (s.jump target).cause = s.cause := rfl
@[simp] theorem State.jump_faultPc (s : State) (target : Word) : (s.jump target).faultPc = s.faultPc := rfl
@[simp] theorem State.jump_faultInfo (s : State) (target : Word) : (s.jump target).faultInfo = s.faultInfo := rfl
@[simp] theorem State.jump_irqPending (s : State) (target : Word) : (s.jump target).irqPending = s.irqPending := rfl
@[simp] theorem State.jump_irqEn (s : State) (target : Word) : (s.jump target).irqEn = s.irqEn := rfl
@[simp] theorem State.jump_imem (s : State) (target : Word) : (s.jump target).imem = s.imem := rfl
@[simp] theorem State.jump_dmem (s : State) (target : Word) : (s.jump target).dmem = s.dmem := rfl
@[simp] theorem State.jump_drawCtr (s : State) (target : Word) : (s.jump target).drawCtr = s.drawCtr := rfl
@[simp] theorem State.jump_hostIn (s : State) (target : Word) : (s.jump target).hostIn = s.hostIn := rfl
@[simp] theorem State.jump_hostOut (s : State) (target : Word) : (s.jump target).hostOut = s.hostOut := rfl

/-! ### bump -/

@[simp] theorem State.bump_params (s : State) (n : Nat) : (s.bump n).params = s.params := rfl
@[simp] theorem State.bump_sRegs (s : State) (n : Nat) : (s.bump n).sRegs = s.sRegs := rfl
@[simp] theorem State.bump_pRegs (s : State) (n : Nat) : (s.bump n).pRegs = s.pRegs := rfl
@[simp] theorem State.bump_fRegs (s : State) (n : Nat) : (s.bump n).fRegs = s.fRegs := rfl
@[simp] theorem State.bump_lRegs (s : State) (n : Nat) : (s.bump n).lRegs = s.lRegs := rfl
@[simp] theorem State.bump_rRegs (s : State) (n : Nat) : (s.bump n).rRegs = s.rRegs := rfl
@[simp] theorem State.bump_bk (s : State) (n : Nat) : (s.bump n).bk = s.bk := rfl
@[simp] theorem State.bump_keyL (s : State) (n : Nat) : (s.bump n).keyL = s.keyL := rfl
@[simp] theorem State.bump_keyR (s : State) (n : Nat) : (s.bump n).keyR = s.keyR := rfl
@[simp] theorem State.bump_pc (s : State) (n : Nat) : (s.bump n).pc = s.pc := rfl
@[simp] theorem State.bump_runState (s : State) (n : Nat) : (s.bump n).runState = s.runState := rfl
@[simp] theorem State.bump_csr (s : State) (n : Nat) : (s.bump n).csr = s.csr := rfl
@[simp] theorem State.bump_startPc (s : State) (n : Nat) : (s.bump n).startPc = s.startPc := rfl
@[simp] theorem State.bump_cause (s : State) (n : Nat) : (s.bump n).cause = s.cause := rfl
@[simp] theorem State.bump_faultPc (s : State) (n : Nat) : (s.bump n).faultPc = s.faultPc := rfl
@[simp] theorem State.bump_faultInfo (s : State) (n : Nat) : (s.bump n).faultInfo = s.faultInfo := rfl
@[simp] theorem State.bump_irqPending (s : State) (n : Nat) : (s.bump n).irqPending = s.irqPending := rfl
@[simp] theorem State.bump_irqEn (s : State) (n : Nat) : (s.bump n).irqEn = s.irqEn := rfl
@[simp] theorem State.bump_imem (s : State) (n : Nat) : (s.bump n).imem = s.imem := rfl
@[simp] theorem State.bump_dmem (s : State) (n : Nat) : (s.bump n).dmem = s.dmem := rfl
@[simp] theorem State.bump_drawCtr (s : State) (n : Nat) : (s.bump n).drawCtr = s.drawCtr + n := rfl
@[simp] theorem State.bump_hostIn (s : State) (n : Nat) : (s.bump n).hostIn = s.hostIn := rfl
@[simp] theorem State.bump_hostOut (s : State) (n : Nat) : (s.bump n).hostOut = s.hostOut := rfl

/-! ### afterLoad -/

@[simp] theorem State.afterLoad_params (s : State) (ea : Word) (cnt : Nat) : (s.afterLoad ea cnt).params = s.params := rfl
@[simp] theorem State.afterLoad_sRegs (s : State) (ea : Word) (cnt : Nat) : (s.afterLoad ea cnt).sRegs = s.sRegs := rfl
@[simp] theorem State.afterLoad_pRegs (s : State) (ea : Word) (cnt : Nat) : (s.afterLoad ea cnt).pRegs = s.pRegs := rfl
@[simp] theorem State.afterLoad_fRegs (s : State) (ea : Word) (cnt : Nat) : (s.afterLoad ea cnt).fRegs = s.fRegs := rfl
@[simp] theorem State.afterLoad_lRegs (s : State) (ea : Word) (cnt : Nat) : (s.afterLoad ea cnt).lRegs = s.lRegs := rfl
@[simp] theorem State.afterLoad_rRegs (s : State) (ea : Word) (cnt : Nat) : (s.afterLoad ea cnt).rRegs = s.rRegs := rfl
@[simp] theorem State.afterLoad_bk (s : State) (ea : Word) (cnt : Nat) : (s.afterLoad ea cnt).bk = s.bk := rfl
@[simp] theorem State.afterLoad_keyL (s : State) (ea : Word) (cnt : Nat) : (s.afterLoad ea cnt).keyL = s.keyL := rfl
@[simp] theorem State.afterLoad_keyR (s : State) (ea : Word) (cnt : Nat) : (s.afterLoad ea cnt).keyR = s.keyR := rfl
@[simp] theorem State.afterLoad_pc (s : State) (ea : Word) (cnt : Nat) : (s.afterLoad ea cnt).pc = s.pc := rfl
@[simp] theorem State.afterLoad_runState (s : State) (ea : Word) (cnt : Nat) : (s.afterLoad ea cnt).runState = s.runState := rfl
@[simp] theorem State.afterLoad_csr (s : State) (ea : Word) (cnt : Nat) : (s.afterLoad ea cnt).csr = s.csr := rfl
@[simp] theorem State.afterLoad_startPc (s : State) (ea : Word) (cnt : Nat) : (s.afterLoad ea cnt).startPc = s.startPc := rfl
@[simp] theorem State.afterLoad_cause (s : State) (ea : Word) (cnt : Nat) : (s.afterLoad ea cnt).cause = s.cause := rfl
@[simp] theorem State.afterLoad_faultPc (s : State) (ea : Word) (cnt : Nat) : (s.afterLoad ea cnt).faultPc = s.faultPc := rfl
@[simp] theorem State.afterLoad_faultInfo (s : State) (ea : Word) (cnt : Nat) : (s.afterLoad ea cnt).faultInfo = s.faultInfo := rfl
@[simp] theorem State.afterLoad_irqPending (s : State) (ea : Word) (cnt : Nat) : (s.afterLoad ea cnt).irqPending = s.irqPending := rfl
@[simp] theorem State.afterLoad_irqEn (s : State) (ea : Word) (cnt : Nat) : (s.afterLoad ea cnt).irqEn = s.irqEn := rfl
@[simp] theorem State.afterLoad_imem (s : State) (ea : Word) (cnt : Nat) : (s.afterLoad ea cnt).imem = s.imem := rfl
@[simp] theorem State.afterLoad_dmem (s : State) (ea : Word) (cnt : Nat) : (s.afterLoad ea cnt).dmem = s.dmem := rfl
@[simp] theorem State.afterLoad_drawCtr (s : State) (ea : Word) (cnt : Nat) : (s.afterLoad ea cnt).drawCtr = (loadWords s.dmem s.drawCtr ea.toNat cnt).2 := rfl
@[simp] theorem State.afterLoad_hostIn (s : State) (ea : Word) (cnt : Nat) : (s.afterLoad ea cnt).hostIn = s.hostIn := rfl
@[simp] theorem State.afterLoad_hostOut (s : State) (ea : Word) (cnt : Nat) : (s.afterLoad ea cnt).hostOut = s.hostOut := rfl

/-! ### afterFetch -/

@[simp] theorem State.afterFetch_params (s : State) : (s.afterFetch).params = s.params := rfl
@[simp] theorem State.afterFetch_sRegs (s : State) : (s.afterFetch).sRegs = s.sRegs := rfl
@[simp] theorem State.afterFetch_pRegs (s : State) : (s.afterFetch).pRegs = s.pRegs := rfl
@[simp] theorem State.afterFetch_fRegs (s : State) : (s.afterFetch).fRegs = s.fRegs := rfl
@[simp] theorem State.afterFetch_lRegs (s : State) : (s.afterFetch).lRegs = s.lRegs := rfl
@[simp] theorem State.afterFetch_rRegs (s : State) : (s.afterFetch).rRegs = s.rRegs := rfl
@[simp] theorem State.afterFetch_bk (s : State) : (s.afterFetch).bk = s.bk := rfl
@[simp] theorem State.afterFetch_keyL (s : State) : (s.afterFetch).keyL = s.keyL := rfl
@[simp] theorem State.afterFetch_keyR (s : State) : (s.afterFetch).keyR = s.keyR := rfl
@[simp] theorem State.afterFetch_pc (s : State) : (s.afterFetch).pc = s.pc := rfl
@[simp] theorem State.afterFetch_runState (s : State) : (s.afterFetch).runState = s.runState := rfl
@[simp] theorem State.afterFetch_csr (s : State) : (s.afterFetch).csr = s.csr := rfl
@[simp] theorem State.afterFetch_startPc (s : State) : (s.afterFetch).startPc = s.startPc := rfl
@[simp] theorem State.afterFetch_cause (s : State) : (s.afterFetch).cause = s.cause := rfl
@[simp] theorem State.afterFetch_faultPc (s : State) : (s.afterFetch).faultPc = s.faultPc := rfl
@[simp] theorem State.afterFetch_faultInfo (s : State) : (s.afterFetch).faultInfo = s.faultInfo := rfl
@[simp] theorem State.afterFetch_irqPending (s : State) : (s.afterFetch).irqPending = s.irqPending := rfl
@[simp] theorem State.afterFetch_irqEn (s : State) : (s.afterFetch).irqEn = s.irqEn := rfl
@[simp] theorem State.afterFetch_imem (s : State) : (s.afterFetch).imem = s.imem := rfl
@[simp] theorem State.afterFetch_dmem (s : State) : (s.afterFetch).dmem = s.dmem := rfl
@[simp] theorem State.afterFetch_drawCtr (s : State) : (s.afterFetch).drawCtr = (fetchWords s).2 := rfl
@[simp] theorem State.afterFetch_hostIn (s : State) : (s.afterFetch).hostIn = s.hostIn := rfl
@[simp] theorem State.afterFetch_hostOut (s : State) : (s.afterFetch).hostOut = s.hostOut := rfl

/-! ### takeFault -/

@[simp] theorem State.takeFault_params (s : State) (x : Exc) : (s.takeFault x).params = s.params := rfl
@[simp] theorem State.takeFault_sRegs (s : State) (x : Exc) : (s.takeFault x).sRegs = s.sRegs := rfl
@[simp] theorem State.takeFault_pRegs (s : State) (x : Exc) : (s.takeFault x).pRegs = s.pRegs := rfl
@[simp] theorem State.takeFault_fRegs (s : State) (x : Exc) : (s.takeFault x).fRegs = s.fRegs := rfl
@[simp] theorem State.takeFault_lRegs (s : State) (x : Exc) : (s.takeFault x).lRegs = s.lRegs := rfl
@[simp] theorem State.takeFault_rRegs (s : State) (x : Exc) : (s.takeFault x).rRegs = s.rRegs := rfl
@[simp] theorem State.takeFault_bk (s : State) (x : Exc) : (s.takeFault x).bk = s.bk := rfl
@[simp] theorem State.takeFault_keyL (s : State) (x : Exc) : (s.takeFault x).keyL = s.keyL := rfl
@[simp] theorem State.takeFault_keyR (s : State) (x : Exc) : (s.takeFault x).keyR = s.keyR := rfl
@[simp] theorem State.takeFault_pc (s : State) (x : Exc) : (s.takeFault x).pc = s.pc := rfl
@[simp] theorem State.takeFault_runState (s : State) (x : Exc) : (s.takeFault x).runState = .faulted := rfl
@[simp] theorem State.takeFault_csr (s : State) (x : Exc) : (s.takeFault x).csr = s.csr := rfl
@[simp] theorem State.takeFault_startPc (s : State) (x : Exc) : (s.takeFault x).startPc = s.startPc := rfl
@[simp] theorem State.takeFault_cause (s : State) (x : Exc) : (s.takeFault x).cause = x.cause := rfl
@[simp] theorem State.takeFault_faultPc (s : State) (x : Exc) : (s.takeFault x).faultPc = s.pc := rfl
@[simp] theorem State.takeFault_faultInfo (s : State) (x : Exc) : (s.takeFault x).faultInfo = x.info := rfl
@[simp] theorem State.takeFault_irqPending (s : State) (x : Exc) : (s.takeFault x).irqPending = true := rfl
@[simp] theorem State.takeFault_irqEn (s : State) (x : Exc) : (s.takeFault x).irqEn = s.irqEn := rfl
@[simp] theorem State.takeFault_imem (s : State) (x : Exc) : (s.takeFault x).imem = s.imem := rfl
@[simp] theorem State.takeFault_dmem (s : State) (x : Exc) : (s.takeFault x).dmem = s.dmem := rfl
@[simp] theorem State.takeFault_drawCtr (s : State) (x : Exc) : (s.takeFault x).drawCtr = s.drawCtr := rfl
@[simp] theorem State.takeFault_hostIn (s : State) (x : Exc) : (s.takeFault x).hostIn = s.hostIn := rfl
@[simp] theorem State.takeFault_hostOut (s : State) (x : Exc) : (s.takeFault x).hostOut = s.hostOut := rfl

/-! ### halt -/

@[simp] theorem State.halt_params (s : State) : (s.halt).params = s.params := rfl
@[simp] theorem State.halt_sRegs (s : State) : (s.halt).sRegs = s.sRegs := rfl
@[simp] theorem State.halt_pRegs (s : State) : (s.halt).pRegs = s.pRegs := rfl
@[simp] theorem State.halt_fRegs (s : State) : (s.halt).fRegs = s.fRegs := rfl
@[simp] theorem State.halt_lRegs (s : State) : (s.halt).lRegs = s.lRegs := rfl
@[simp] theorem State.halt_rRegs (s : State) : (s.halt).rRegs = s.rRegs := rfl
@[simp] theorem State.halt_bk (s : State) : (s.halt).bk = s.bk := rfl
@[simp] theorem State.halt_keyL (s : State) : (s.halt).keyL = s.keyL := rfl
@[simp] theorem State.halt_keyR (s : State) : (s.halt).keyR = s.keyR := rfl
@[simp] theorem State.halt_pc (s : State) : (s.halt).pc = s.pc := rfl
@[simp] theorem State.halt_runState (s : State) : (s.halt).runState = .halted := rfl
@[simp] theorem State.halt_csr (s : State) : (s.halt).csr = s.csr := rfl
@[simp] theorem State.halt_startPc (s : State) : (s.halt).startPc = s.startPc := rfl
@[simp] theorem State.halt_cause (s : State) : (s.halt).cause = s.cause := rfl
@[simp] theorem State.halt_faultPc (s : State) : (s.halt).faultPc = s.faultPc := rfl
@[simp] theorem State.halt_faultInfo (s : State) : (s.halt).faultInfo = s.faultInfo := rfl
@[simp] theorem State.halt_irqPending (s : State) : (s.halt).irqPending = true := rfl
@[simp] theorem State.halt_irqEn (s : State) : (s.halt).irqEn = s.irqEn := rfl
@[simp] theorem State.halt_imem (s : State) : (s.halt).imem = s.imem := rfl
@[simp] theorem State.halt_dmem (s : State) : (s.halt).dmem = s.dmem := rfl
@[simp] theorem State.halt_drawCtr (s : State) : (s.halt).drawCtr = s.drawCtr := rfl
@[simp] theorem State.halt_hostIn (s : State) : (s.halt).hostIn = s.hostIn := rfl
@[simp] theorem State.halt_hostOut (s : State) : (s.halt).hostOut = s.hostOut := rfl

/-! ### start -/

@[simp] theorem State.start_params (s : State) : (s.start).params = s.params := rfl
@[simp] theorem State.start_sRegs (s : State) : (s.start).sRegs = s.sRegs := rfl
@[simp] theorem State.start_pRegs (s : State) : (s.start).pRegs = s.pRegs := rfl
@[simp] theorem State.start_fRegs (s : State) : (s.start).fRegs = s.fRegs := rfl
@[simp] theorem State.start_lRegs (s : State) : (s.start).lRegs = s.lRegs := rfl
@[simp] theorem State.start_rRegs (s : State) : (s.start).rRegs = s.rRegs := rfl
@[simp] theorem State.start_bk (s : State) : (s.start).bk = s.bk := rfl
@[simp] theorem State.start_keyL (s : State) : (s.start).keyL = s.keyL := rfl
@[simp] theorem State.start_keyR (s : State) : (s.start).keyR = s.keyR := rfl
@[simp] theorem State.start_pc (s : State) : (s.start).pc = s.startPc := rfl
@[simp] theorem State.start_runState (s : State) : (s.start).runState = .running := rfl
@[simp] theorem State.start_csr (s : State) : (s.start).csr = s.csr := rfl
@[simp] theorem State.start_startPc (s : State) : (s.start).startPc = s.startPc := rfl
@[simp] theorem State.start_cause (s : State) : (s.start).cause = .none := rfl
@[simp] theorem State.start_faultPc (s : State) : (s.start).faultPc = 0 := rfl
@[simp] theorem State.start_faultInfo (s : State) : (s.start).faultInfo = 0 := rfl
@[simp] theorem State.start_irqPending (s : State) : (s.start).irqPending = false := rfl
@[simp] theorem State.start_irqEn (s : State) : (s.start).irqEn = s.irqEn := rfl
@[simp] theorem State.start_imem (s : State) : (s.start).imem = s.imem := rfl
@[simp] theorem State.start_dmem (s : State) : (s.start).dmem = s.dmem := rfl
@[simp] theorem State.start_drawCtr (s : State) : (s.start).drawCtr = s.drawCtr := rfl
@[simp] theorem State.start_hostIn (s : State) : (s.start).hostIn = s.hostIn := rfl
@[simp] theorem State.start_hostOut (s : State) : (s.start).hostOut = s.hostOut := rfl

/-! ### The parameter values see only the CSRs -/

@[simp] theorem State.advance_ringN (s : State) : (s.advance).ringN = s.ringN := rfl
@[simp] theorem State.advance_rankK (s : State) : (s.advance).rankK = s.rankK := rfl
@[simp] theorem State.advance_lweN (s : State) : (s.advance).lweN = s.lweN := rfl
@[simp] theorem State.advance_gadL (s : State) : (s.advance).gadL = s.gadL := rfl
@[simp] theorem State.advance_gadBits (s : State) : (s.advance).gadBits = s.gadBits := rfl
@[simp] theorem State.advance_ksT (s : State) : (s.advance).ksT = s.ksT := rfl
@[simp] theorem State.advance_ksBits (s : State) : (s.advance).ksBits = s.ksBits := rfl
@[simp] theorem State.advance_alpha (s : State) : (s.advance).alpha = s.alpha := rfl
@[simp] theorem State.advance_extN (s : State) : (s.advance).extN = s.extN := rfl
@[simp] theorem State.advance_kpl (s : State) : (s.advance).kpl = s.kpl := rfl
@[simp] theorem State.bump_ringN (s : State) (n : Nat) : (s.bump n).ringN = s.ringN := rfl
@[simp] theorem State.bump_rankK (s : State) (n : Nat) : (s.bump n).rankK = s.rankK := rfl
@[simp] theorem State.bump_lweN (s : State) (n : Nat) : (s.bump n).lweN = s.lweN := rfl
@[simp] theorem State.bump_gadL (s : State) (n : Nat) : (s.bump n).gadL = s.gadL := rfl
@[simp] theorem State.bump_gadBits (s : State) (n : Nat) : (s.bump n).gadBits = s.gadBits := rfl
@[simp] theorem State.bump_ksT (s : State) (n : Nat) : (s.bump n).ksT = s.ksT := rfl
@[simp] theorem State.bump_ksBits (s : State) (n : Nat) : (s.bump n).ksBits = s.ksBits := rfl
@[simp] theorem State.bump_alpha (s : State) (n : Nat) : (s.bump n).alpha = s.alpha := rfl
@[simp] theorem State.bump_extN (s : State) (n : Nat) : (s.bump n).extN = s.extN := rfl
@[simp] theorem State.bump_kpl (s : State) (n : Nat) : (s.bump n).kpl = s.kpl := rfl
@[simp] theorem State.afterLoad_ringN (s : State) (ea : Word) (cnt : Nat) : (s.afterLoad ea cnt).ringN = s.ringN := rfl
@[simp] theorem State.afterLoad_rankK (s : State) (ea : Word) (cnt : Nat) : (s.afterLoad ea cnt).rankK = s.rankK := rfl
@[simp] theorem State.afterLoad_lweN (s : State) (ea : Word) (cnt : Nat) : (s.afterLoad ea cnt).lweN = s.lweN := rfl
@[simp] theorem State.afterLoad_gadL (s : State) (ea : Word) (cnt : Nat) : (s.afterLoad ea cnt).gadL = s.gadL := rfl
@[simp] theorem State.afterLoad_gadBits (s : State) (ea : Word) (cnt : Nat) : (s.afterLoad ea cnt).gadBits = s.gadBits := rfl
@[simp] theorem State.afterLoad_ksT (s : State) (ea : Word) (cnt : Nat) : (s.afterLoad ea cnt).ksT = s.ksT := rfl
@[simp] theorem State.afterLoad_ksBits (s : State) (ea : Word) (cnt : Nat) : (s.afterLoad ea cnt).ksBits = s.ksBits := rfl
@[simp] theorem State.afterLoad_alpha (s : State) (ea : Word) (cnt : Nat) : (s.afterLoad ea cnt).alpha = s.alpha := rfl
@[simp] theorem State.afterLoad_extN (s : State) (ea : Word) (cnt : Nat) : (s.afterLoad ea cnt).extN = s.extN := rfl
@[simp] theorem State.afterLoad_kpl (s : State) (ea : Word) (cnt : Nat) : (s.afterLoad ea cnt).kpl = s.kpl := rfl
@[simp] theorem State.afterFetch_ringN (s : State) : (s.afterFetch).ringN = s.ringN := rfl
@[simp] theorem State.afterFetch_rankK (s : State) : (s.afterFetch).rankK = s.rankK := rfl
@[simp] theorem State.afterFetch_lweN (s : State) : (s.afterFetch).lweN = s.lweN := rfl
@[simp] theorem State.afterFetch_gadL (s : State) : (s.afterFetch).gadL = s.gadL := rfl
@[simp] theorem State.afterFetch_gadBits (s : State) : (s.afterFetch).gadBits = s.gadBits := rfl
@[simp] theorem State.afterFetch_ksT (s : State) : (s.afterFetch).ksT = s.ksT := rfl
@[simp] theorem State.afterFetch_ksBits (s : State) : (s.afterFetch).ksBits = s.ksBits := rfl
@[simp] theorem State.afterFetch_alpha (s : State) : (s.afterFetch).alpha = s.alpha := rfl
@[simp] theorem State.afterFetch_extN (s : State) : (s.afterFetch).extN = s.extN := rfl
@[simp] theorem State.afterFetch_kpl (s : State) : (s.afterFetch).kpl = s.kpl := rfl
@[simp] theorem State.takeFault_ringN (s : State) (x : Exc) : (s.takeFault x).ringN = s.ringN := rfl
@[simp] theorem State.takeFault_rankK (s : State) (x : Exc) : (s.takeFault x).rankK = s.rankK := rfl
@[simp] theorem State.takeFault_lweN (s : State) (x : Exc) : (s.takeFault x).lweN = s.lweN := rfl
@[simp] theorem State.takeFault_gadL (s : State) (x : Exc) : (s.takeFault x).gadL = s.gadL := rfl
@[simp] theorem State.takeFault_gadBits (s : State) (x : Exc) : (s.takeFault x).gadBits = s.gadBits := rfl
@[simp] theorem State.takeFault_ksT (s : State) (x : Exc) : (s.takeFault x).ksT = s.ksT := rfl
@[simp] theorem State.takeFault_ksBits (s : State) (x : Exc) : (s.takeFault x).ksBits = s.ksBits := rfl
@[simp] theorem State.takeFault_alpha (s : State) (x : Exc) : (s.takeFault x).alpha = s.alpha := rfl
@[simp] theorem State.takeFault_extN (s : State) (x : Exc) : (s.takeFault x).extN = s.extN := rfl
@[simp] theorem State.takeFault_kpl (s : State) (x : Exc) : (s.takeFault x).kpl = s.kpl := rfl

/-! ### Reading a register after a write (R201, R202) -/

/-- R32: S0 reads 0. -/
@[simp] theorem State.getS_zero (s : State) : s.getS 0 = some 0 := rfl

/-- R202: what a scalar read gives after a scalar write. -/
theorem State.getS_setS (s : State) (d j : SIdx) (v : Word) :
    (s.setS d v).getS j = if j = 0 then some 0 else if j = d then some v else s.getS j := by
  unfold State.getS State.setS
  by_cases hj : j = 0
  · simp [hj]
  · by_cases hd : d = 0
    · subst hd; simp [hj]
    · simp only [hj, hd, if_false]
      by_cases h : j = d
      · subst h; simp
      · have : d.val ≠ j.val := fun e => h (Fin.ext e.symm)
        simp [h, this]

/-- A scalar read sees only the scalar file. -/
theorem State.getS_congr {s t : State} (h : t.sRegs = s.sRegs) (j : SIdx) : t.getS j = s.getS j := by
  unfold State.getS; rw [h]

/-- Reading a register file entry after an entry was written. -/
theorem vector_get_set {α : Type} {n : Nat} (v : Vector α n) (d j : Fin n) (x : α) :
    (v.set d x)[j] = if j = d then x else v[j] := by
  by_cases h : j = d
  · subst h; simp
  · have : d.val ≠ j.val := fun e => h (Fin.ext e.symm)
    simp [h, this]

end Sys2Proof.Machine
end

