-- ==== Sys2Proof/Laws/Operands.lean ====
section
/-! SUPPORT. Laws/Operands.lean: what each check and operand form can do, said once, in two ways: an
`_answers` lemma for proofs about every outcome, and a success equation for proofs about one outcome. -/

namespace Sys2Proof.Machine

/-- The result is a next state with the given property. -/
def Answers (r : Result) (Q : State → Prop) : Prop := ∃ t, r = .next t ∧ Q t

variable {s : State} {Q : State → Prop}

theorem Answers.mono {r : Result} {Q' : State → Prop} (h : Answers r Q) (hq : ∀ t, Q t → Q' t) : Answers r Q' := by
  obtain ⟨t, ht, hQ⟩ := h; exact ⟨t, ht, hq t hQ⟩

/-- A property of every outcome holds of the one an instruction answers. -/
theorem Answers.of_eq {r : Result} {t : State} (h : Answers r Q) (ht : r = .next t) : Q t := by
  obtain ⟨t', ht', hQ⟩ := h; rw [ht] at ht'; cases ht'; exact hQ

@[simp] theorem next_answers (t : State) : Answers (.next t) Q ↔ Q t :=
  ⟨fun ⟨t', h, hq⟩ => by cases h; exact hq, fun h => ⟨t, rfl, h⟩⟩

@[simp] theorem done_answers (t : State) : Answers (done t) Q ↔ Q t.advance := next_answers _

@[simp] theorem raise_answers (t : State) (x : Exc) : Answers (raise t x) Q ↔ Q (t.takeFault x) := next_answers _

/-! ### Checks -/

/-- `check c else raise x` goes on or takes the fault (R15). -/
theorem need_answers (c : Bool) (x : Exc) (k : Unit → Result) :
    Answers (need s c x k) Q ↔ (c = true → Answers (k ()) Q) ∧ (c = false → Q (s.takeFault x)) := by
  cases c <;> simp [need]

theorem need_true {c : Bool} (h : c = true) (x : Exc) (k : Unit → Result) : need s c x k = k () := by
  simp [need, h]

theorem need_false {c : Bool} (h : c = false) (x : Exc) (k : Unit → Result) : need s c x k = raise s x := by
  simp [need, h]

theorem needN_answers (k : Unit → Result) : Answers (needN s k) Q ↔
    (s.nOk = true → Answers (k ()) Q) ∧ (s.nOk = false → Q (s.takeFault (.badParam 0x000))) := need_answers ..

theorem needN_ok (h : s.nOk = true) (k : Unit → Result) : needN s k = k () := need_true h ..

theorem needRing_answers (k : Unit → Result) : Answers (needRing s k) Q ↔
    (s.ringOk = true → Answers (k ()) Q) ∧ (s.nOk = false → Q (s.takeFault (.badParam 0x000)))
      ∧ (s.nOk = true → s.kOk = false → Q (s.takeFault (.badParam 0x001))) := by
  simp only [needRing, need_answers, State.ringOk, Bool.and_eq_true]
  tauto

theorem needRing_ok (h : s.ringOk = true) (k : Unit → Result) : needRing s k = k () := by
  simp only [State.ringOk, Bool.and_eq_true] at h
  rw [needRing, need_true h.1, need_true h.2]

theorem needLwe_answers (k : Unit → Result) : Answers (needLwe s k) Q ↔
    (s.lweOk = true → Answers (k ()) Q) ∧ (s.lweOk = false → Q (s.takeFault (.badParam 0x002))) :=
  need_answers ..

theorem needLwe_ok (h : s.lweOk = true) (k : Unit → Result) : needLwe s k = k () := need_true h ..

theorem needGad_answers (k : Unit → Result) : Answers (needGad s k) Q ↔
    (s.gadOk = true → Answers (k ()) Q) ∧ (s.gadOk = false → Q (s.takeFault (.badParam 0x003))) :=
  need_answers ..

theorem needGad_ok (h : s.gadOk = true) (k : Unit → Result) : needGad s k = k () := need_true h ..

theorem needKs_answers (k : Unit → Result) : Answers (needKs s k) Q ↔
    (s.ksOk = true → Answers (k ()) Q) ∧ (s.ksOk = false → Q (s.takeFault (.badParam 0x005))) :=
  need_answers ..

theorem needKs_ok (h : s.ksOk = true) (k : Unit → Result) : needKs s k = k () := need_true h ..

theorem needBkFit_answers (k : Unit → Result) : Answers (needBkFit s k) Q ↔
    (s.bkFit = true → Answers (k ()) Q) ∧ (s.bkFit = false → Q (s.takeFault (.badParam 0x002))) :=
  need_answers ..

theorem needBkFit_ok (h : s.bkFit = true) (k : Unit → Result) : needBkFit s k = k () := need_true h ..

/-! ### Registers -/

theorem withS_answers (i : SIdx) (k : Word → Result) : Answers (withS s i k) Q ↔
    (∀ v, s.getS i = some v → Answers (k v) Q) ∧ (s.getS i = none → Q (s.takeFault (.uninit .s i.val))) := by
  unfold withS; cases s.getS i <;> simp

theorem withS_some {i : SIdx} {v : Word} (h : s.getS i = some v) (k : Word → Result) : withS s i k = k v := by
  simp [withS, h]

theorem withS_none {i : SIdx} (h : s.getS i = none) (k : Word → Result) :
    withS s i k = raise s (.uninit .s i.val) := by
  simp [withS, h]

theorem withP_answers (i : PIdx) (k : PReg → Result) : Answers (withP s i k) Q ↔
    (∀ x, s.pRegs[i] = some x → Answers (k x) Q) ∧ (s.pRegs[i] = none → Q (s.takeFault (.uninit .p i.val))) := by
  unfold withP; cases s.pRegs[i] <;> simp

theorem withP_some {i : PIdx} {x : PReg} (h : s.pRegs[i] = some x) (k : PReg → Result) : withP s i k = k x := by
  simp only [withP, h]

theorem withP_none {i : PIdx} (h : s.pRegs[i] = none) (k : PReg → Result) :
    withP s i k = raise s (.uninit .p i.val) := by
  simp only [withP, h]

theorem withF_answers (i : FIdx) (k : FReg → Result) : Answers (withF s i k) Q ↔
    (∀ x, s.fRegs[i] = some x → Answers (k x) Q) ∧ (s.fRegs[i] = none → Q (s.takeFault (.uninit .f i.val))) := by
  unfold withF; cases s.fRegs[i] <;> simp

theorem withF_some {i : FIdx} {x : FReg} (h : s.fRegs[i] = some x) (k : FReg → Result) : withF s i k = k x := by
  simp only [withF, h]

theorem withF_none {i : FIdx} (h : s.fRegs[i] = none) (k : FReg → Result) :
    withF s i k = raise s (.uninit .f i.val) := by
  simp only [withF, h]

theorem withL_answers (i : LIdx) (k : LReg → Result) : Answers (withL s i k) Q ↔
    (∀ x, s.lRegs[i] = some x → Answers (k x) Q) ∧ (s.lRegs[i] = none → Q (s.takeFault (.uninit .l i.val))) := by
  unfold withL; cases s.lRegs[i] <;> simp

theorem withL_some {i : LIdx} {x : LReg} (h : s.lRegs[i] = some x) (k : LReg → Result) : withL s i k = k x := by
  simp only [withL, h]

theorem withL_none {i : LIdx} (h : s.lRegs[i] = none) (k : LReg → Result) :
    withL s i k = raise s (.uninit .l i.val) := by
  simp only [withL, h]

theorem withR_answers (i : RIdx) (k : RReg → Result) : Answers (withR s i k) Q ↔
    (∀ x, s.rRegs[i] = some x → Answers (k x) Q) ∧ (s.rRegs[i] = none → Q (s.takeFault (.uninit .r i.val))) := by
  unfold withR; cases s.rRegs[i] <;> simp

theorem withR_some {i : RIdx} {x : RReg} (h : s.rRegs[i] = some x) (k : RReg → Result) : withR s i k = k x := by
  simp only [withR, h]

theorem withR_none {i : RIdx} (h : s.rRegs[i] = none) (k : RReg → Result) :
    withR s i k = raise s (.uninit .r i.val) := by
  simp only [withR, h]

/-! ### Tags -/

theorem tagP_answers (i : PIdx) (x : PReg) (k : Unit → Result) : Answers (tagP s i x k) Q ↔
    (x.deg = s.ringN → Answers (k ()) Q) ∧ (x.deg ≠ s.ringN → Q (s.takeFault (.mismatch .p i.val))) := by
  simp [tagP, need_answers]

theorem tagP_ok {i : PIdx} {x : PReg} (h : x.deg = s.ringN) (k : Unit → Result) : tagP s i x k = k () :=
  need_true (by simp [h]) ..

theorem tagP_bad {i : PIdx} {x : PReg} (h : x.deg ≠ s.ringN) (k : Unit → Result) :
    tagP s i x k = raise s (.mismatch .p i.val) := need_false (by simp [h]) ..

theorem tagF_answers (i : FIdx) (x : FReg) (k : Unit → Result) : Answers (tagF s i x k) Q ↔
    (x.deg = s.ringN → Answers (k ()) Q) ∧ (x.deg ≠ s.ringN → Q (s.takeFault (.mismatch .f i.val))) := by
  simp [tagF, need_answers]

theorem tagF_ok {i : FIdx} {x : FReg} (h : x.deg = s.ringN) (k : Unit → Result) : tagF s i x k = k () :=
  need_true (by simp [h]) ..

theorem tagF_bad {i : FIdx} {x : FReg} (h : x.deg ≠ s.ringN) (k : Unit → Result) :
    tagF s i x k = raise s (.mismatch .f i.val) := need_false (by simp [h]) ..

theorem tagL_answers (i : LIdx) (x : LReg) (d : Nat) (k : Unit → Result) : Answers (tagL s i x d k) Q ↔
    (x.dim = d → Answers (k ()) Q) ∧ (x.dim ≠ d → Q (s.takeFault (.mismatch .l i.val))) := by
  simp [tagL, need_answers]

theorem tagL_ok {i : LIdx} {x : LReg} {d : Nat} (h : x.dim = d) (k : Unit → Result) : tagL s i x d k = k () :=
  need_true (by simp [h]) ..

theorem tagL_bad {i : LIdx} {x : LReg} {d : Nat} (h : x.dim ≠ d) (k : Unit → Result) :
    tagL s i x d k = raise s (.mismatch .l i.val) := need_false (by simp [h]) ..

theorem tagR_answers (i : RIdx) (x : RReg) (k : Unit → Result) : Answers (tagR s i x k) Q ↔
    (x.deg = s.ringN → x.k = s.rankK → Answers (k ()) Q)
      ∧ (¬ (x.deg = s.ringN ∧ x.k = s.rankK) → Q (s.takeFault (.mismatch .r i.val))) := by
  simp only [tagR, need_answers, Bool.and_eq_true, beq_iff_eq, Bool.eq_false_iff, ne_eq]
  tauto

theorem tagR_ok {i : RIdx} {x : RReg} (h : x.deg = s.ringN) (h' : x.k = s.rankK) (k : Unit → Result) :
    tagR s i x k = k () := need_true (by simp [h, h']) ..

theorem tagR_bad {i : RIdx} {x : RReg} (h : ¬ (x.deg = s.ringN ∧ x.k = s.rankK)) (k : Unit → Result) :
    tagR s i x k = raise s (.mismatch .r i.val) :=
  need_false (by simp only [Bool.eq_false_iff, ne_eq, Bool.and_eq_true, beq_iff_eq]; exact h) ..

/-! ### Keys -/

theorem needSel_answers (sel : KeySel) (k : Unit → Result) : Answers (needSel s sel k) Q ↔
    (sel = .lwe → (s.lweOk = true → Answers (k ()) Q) ∧ (s.lweOk = false → Q (s.takeFault (.badParam 0x002))))
    ∧ (sel = .ext → (s.ringOk = true → Answers (k ()) Q) ∧ (s.nOk = false → Q (s.takeFault (.badParam 0x000)))
      ∧ (s.nOk = true → s.kOk = false → Q (s.takeFault (.badParam 0x001)))) := by
  cases sel <;> simp [needSel, needLwe_answers, needRing_answers]

theorem needSel_lwe (h : s.lweOk = true) (k : Unit → Result) : needSel s .lwe k = k () := needLwe_ok h k

theorem needSel_ext (h : s.ringOk = true) (k : Unit → Result) : needSel s .ext k = k () := needRing_ok h k

theorem withKey_answers (sel : KeySel) (k : List Bool → Bool → Result) : Answers (withKey s sel k) Q ↔
    (∀ bits fits, selKey s sel = some (bits, fits) → Answers (k bits fits) Q)
      ∧ (selKey s sel = none → Q (s.takeFault (.uninit (selFile sel) 0))) := by
  unfold withKey
  cases selKey s sel with
  | none => simp
  | some x =>
    obtain ⟨bits, fits⟩ := x
    refine ⟨fun h => ⟨fun b f e => by cases e; exact h, fun e => by cases e⟩, fun h => h.1 _ _ rfl⟩

theorem withKey_some {sel : KeySel} {bits : List Bool} {fits : Bool} (h : selKey s sel = some (bits, fits))
    (k : List Bool → Bool → Result) : withKey s sel k = k bits fits := by
  simp only [withKey, h]

theorem withKey_none {sel : KeySel} (h : selKey s sel = none) (k : List Bool → Bool → Result) :
    withKey s sel k = raise s (.uninit (selFile sel) 0) := by
  simp only [withKey, h]

theorem tagKey_answers (sel : KeySel) (fits : Bool) (k : Unit → Result) : Answers (tagKey s sel fits k) Q ↔
    (fits = true → Answers (k ()) Q) ∧ (fits = false → Q (s.takeFault (.mismatch (selFile sel) 0))) :=
  need_answers ..

theorem tagKey_ok (sel : KeySel) (k : Unit → Result) : tagKey s sel true k = k () := need_true rfl ..

theorem withKeyR_answers (k : KeyR → Result) : Answers (withKeyR s k) Q ↔
    (∀ x, s.keyR = some x → x.deg = s.ringN → x.k = s.rankK → Answers (k x) Q)
      ∧ (∀ x, s.keyR = some x → ¬ (x.deg = s.ringN ∧ x.k = s.rankK) → Q (s.takeFault (.mismatch .keyR 0)))
      ∧ (s.keyR = none → Q (s.takeFault (.uninit .keyR 0))) := by
  unfold withKeyR
  cases s.keyR with
  | none => simp
  | some x =>
    simp only [need_answers, Bool.and_eq_true, beq_iff_eq, Bool.eq_false_iff, ne_eq, Option.some.injEq,
      forall_eq', reduceCtorEq, false_implies, and_true]
    tauto

theorem withKeyR_some {x : KeyR} (h : s.keyR = some x) (hd : x.deg = s.ringN) (hk : x.k = s.rankK)
    (k : KeyR → Result) : withKeyR s k = k x := by
  simp only [withKeyR, h]; exact need_true (by simp [hd, hk]) ..

/-! ### Operand values -/

theorem needModulus_answers (m : Word) (k : Unit → Result) : Answers (needModulus s m k) Q ↔
    (m ≠ 0 → Answers (k ()) Q) ∧ (m = 0 → Q (s.takeFault (.badOperand m))) := by
  simp [needModulus, need_answers]

theorem needModulus_ok {m : Word} (h : m ≠ 0) (k : Unit → Result) : needModulus s m k = k () :=
  need_true (bne_iff_ne.mpr h) ..

theorem needBelow_answers (v : Word) (lim : Nat) (k : Unit → Result) : Answers (needBelow s v lim k) Q ↔
    (v.toNat < lim → Answers (k ()) Q) ∧ (lim ≤ v.toNat → Q (s.takeFault (.badOperand v))) := by
  simp [needBelow, need_answers]

theorem needBelow_ok {v : Word} {lim : Nat} (h : v.toNat < lim) (k : Unit → Result) :
    needBelow s v lim k = k () := need_true (by simp [h]) ..

/-! ### BK slots -/

theorem needSlots_answers (n : Nat) (k : Unit → Result) : Answers (needSlots s n k) Q ↔
    ((List.range n).findSome? (slotFault s) = none → Answers (k ()) Q)
      ∧ (∀ x, (List.range n).findSome? (slotFault s) = some x → Q (s.takeFault x)) := by
  unfold needSlots; cases (List.range n).findSome? (slotFault s) <;> simp

/-- R480 item 4: the check passes when every slot is valid and fits. -/
theorem needSlots_ok {n : Nat} (h : ∀ i, i < n → ∃ g, s.getBk i = some g ∧ bkFits s g = true) (k : Unit → Result) :
    needSlots s n k = k () := by
  have : (List.range n).findSome? (slotFault s) = none := by
    rw [List.findSome?_eq_none_iff]
    intro i hi
    obtain ⟨g, hg, hf⟩ := h i (List.mem_range.mp hi)
    simp [slotFault, hg, hf]
  simp only [needSlots, this]

theorem withSlot_answers (slot : Nat) (k : Rgsw → Result) : Answers (withSlot s slot k) Q ↔
    (∀ g, s.getBk slot = some g → bkFits s g = true → Answers (k g) Q)
      ∧ (∀ g, s.getBk slot = some g → bkFits s g = false → Q (s.takeFault (.mismatch .bk slot)))
      ∧ (s.getBk slot = none → Q (s.takeFault (.uninit .bk slot))) := by
  unfold withSlot; cases s.getBk slot <;> simp [need_answers]

theorem withSlot_some {slot : Nat} {g : Rgsw} (h : s.getBk slot = some g) (hf : bkFits s g = true)
    (k : Rgsw → Result) : withSlot s slot k = k g := by
  simp only [withSlot, h]; exact need_true hf ..

/-! ### DMEM transfers -/

theorem needSpan_answers (ea : Word) (bytes : Nat) (k : Unit → Result) : Answers (needSpan s ea bytes k) Q ↔
    (ea.toNat % 4 = 0 → ea.toNat + bytes ≤ s.params.dmemSize → Answers (k ()) Q)
      ∧ (ea.toNat % 4 ≠ 0 → Q (s.takeFault ⟨.dmemMisaligned, ea⟩))
      ∧ (ea.toNat % 4 = 0 → s.params.dmemSize < ea.toNat + bytes → Q (s.takeFault ⟨.dmemOob, ea⟩)) := by
  simp only [needSpan, need_answers, beq_iff_eq, decide_eq_true_eq, decide_eq_false_iff_not, Nat.not_le,
    beq_eq_false_iff_ne, ne_eq]
  tauto

theorem needSpan_ok {ea : Word} {bytes : Nat} (h : ea.toNat % 4 = 0) (h' : ea.toNat + bytes ≤ s.params.dmemSize)
    (k : Unit → Result) : needSpan s ea bytes k = k () := by
  rw [needSpan, need_true (by simp [h]), need_true (by simp [h'])]

theorem needSpan_misaligned {ea : Word} {bytes : Nat} (h : ea.toNat % 4 ≠ 0) (k : Unit → Result) :
    needSpan s ea bytes k = raise s ⟨.dmemMisaligned, ea⟩ := by
  rw [needSpan, need_false (by simp [h])]

theorem needSpan_oob {ea : Word} {bytes : Nat} (h : ea.toNat % 4 = 0)
    (h' : s.params.dmemSize < ea.toNat + bytes) (k : Unit → Result) :
    needSpan s ea bytes k = raise s ⟨.dmemOob, ea⟩ := by
  rw [needSpan, need_true (by simp [h]), need_false (by simp [h'])]

theorem needKsk_answers (k : Unit → Result) : Answers (needKsk s k) Q ↔
    (s.csr.kskBase.toNat % 4 = 0 →
        s.csr.kskBase.toNat + kskBytes s.extN s.lweN s.ksT s.ksBits ≤ s.params.dmemSize → Answers (k ()) Q)
      ∧ (s.csr.kskBase.toNat % 4 ≠ 0 → Q (s.takeFault ⟨.dmemMisaligned, s.csr.kskBase⟩))
      ∧ (s.csr.kskBase.toNat % 4 = 0 →
        s.params.dmemSize < s.csr.kskBase.toNat + kskBytes s.extN s.lweN s.ksT s.ksBits →
        Q (s.takeFault ⟨.dmemOob, s.csr.kskBase⟩)) := needSpan_answers ..

theorem needKeyWords_answers (t : State) (w : List Word) (k : Unit → Result) : Answers (needKeyWords t w k) Q ↔
    (badKeyWord w = none → Answers (k ()) Q)
      ∧ (∀ v, badKeyWord w = some v → Q (t.takeFault (.badOperand v))) := by
  unfold needKeyWords; cases badKeyWord w <;> simp

/-- R115: a key image of zeros and ones passes. -/
theorem needKeyWords_ok {w : List Word} (h : ∀ x ∈ w, x = 0 ∨ x = 1) (t : State) (k : Unit → Result) :
    needKeyWords t w k = k () := by
  have : badKeyWord w = none := by
    rw [badKeyWord, List.find?_eq_none]
    intro x hx
    rcases h x hx with rfl | rfl <;> decide
  simp only [needKeyWords, this]

/-- R480: the checks of the three bootstrapping instructions. -/
theorem needBoot_answers (ks : Bool) (a : LIdx) (b : SIdx) (k : LReg → Word → Result)
    (hk : ∀ c mu, s.ringOk = true → s.lweOk = true → s.gadOk = true → (ks = true → s.ksOk = true) →
      s.bkFit = true → s.lRegs[a] = some c → s.getS b = some mu → c.dim = s.lweN →
      (List.range s.lweN).findSome? (slotFault s) = none → Answers (k c mu) Q)
    (hf : ∀ x : Exc, x.cause ≠ .none → Q (s.takeFault x)) : Answers (needBoot s ks a b k) Q := by
  simp only [needBoot, needRing_answers, needLwe_answers, needGad_answers, need_answers, needBkFit_answers,
    withL_answers, withS_answers, tagL_answers, needSlots_answers, State.ringOk, Bool.and_eq_true,
    Bool.or_eq_true, Bool.not_eq_true'] at *
  refine ⟨fun h1 => ⟨fun h2 => ⟨fun h3 => ⟨fun h4 => ⟨fun h5 => ⟨fun c hc => ⟨fun mu hmu => ⟨fun hd =>
    ⟨fun hs => hk c mu h1 h2 h3 (fun hks => ?_) h5 hc hmu hd hs, fun x hx => ?_⟩, ?_⟩, ?_⟩, ?_⟩, ?_⟩, ?_⟩,
    ?_⟩, ?_⟩, ?_, ?_⟩
  · rcases h4 with h4 | h4
    · rw [hks] at h4; cases h4
    · exact h4
  · obtain ⟨i, -, hi⟩ := List.exists_of_findSome?_eq_some hx
    refine hf x ?_
    unfold slotFault at hi
    split at hi
    · cases hi; exact Cause.noConfusion
    · split at hi
      · cases hi
      · cases hi; exact Cause.noConfusion
  all_goals intros; exact hf _ Cause.noConfusion

/-- R480: where the checks pass. -/
theorem needBoot_ok {ks : Bool} {a : LIdx} {b : SIdx} {c : LReg} {mu : Word} (h1 : s.ringOk = true)
    (h2 : s.lweOk = true) (h3 : s.gadOk = true) (h4 : ks = true → s.ksOk = true) (h5 : s.bkFit = true)
    (hc : s.lRegs[a] = some c) (hmu : s.getS b = some mu) (hd : c.dim = s.lweN)
    (hs : ∀ i, i < s.lweN → ∃ g, s.getBk i = some g ∧ bkFits s g = true) (k : LReg → Word → Result) :
    needBoot s ks a b k = k c mu := by
  have h4' : (!ks || s.ksOk) = true := by cases ks <;> simp_all
  rw [needBoot, needRing_ok h1, needLwe_ok h2, needGad_ok h3, need_true h4', needBkFit_ok h5, withL_some hc,
    withS_some hmu, tagL_ok hd, needSlots_ok hs]

end Sys2Proof.Machine
end

