-- ==== Sys2Proof/Laws/Checks.lean ====
section
/-! SUPPORT. Laws/Checks.lean: the check lists of Safety.lean in the spelling the meanings use: each predicate
of R52 as the Bool the check tests, and each valid bit and tag as what `withS`, `tagP` and the rest match on. -/

namespace Sys2Proof.Machine

variable {s : State}

/-! ### Parameter predicates (R52) -/

@[simp] theorem paramN_holds : ParamPred.n.Holds s ↔ s.nOk = true := by
  simp only [ParamPred.Holds, degreeOk, State.nOk, State.ringN, List.contains_iff_mem]

@[simp] theorem paramK_holds : ParamPred.k.Holds s ↔ s.kOk = true := by
  simp [ParamPred.Holds, rankOk, State.kOk, State.rankK]

@[simp] theorem paramLwe_holds : ParamPred.lwe.Holds s ↔ s.lweOk = true := by
  simp only [State.lweOk, Bool.and_eq_true, decide_eq_true_eq]; exact Iff.rfl

@[simp] theorem paramGad_holds : ParamPred.gad.Holds s ↔ s.gadOk = true := by
  simp only [State.gadOk, Bool.and_eq_true, decide_eq_true_eq, and_assoc]; exact Iff.rfl

@[simp] theorem paramKs_holds : ParamPred.ks.Holds s ↔ s.ksOk = true := by
  simp only [State.ksOk, Bool.and_eq_true, decide_eq_true_eq, and_assoc]; exact Iff.rfl

@[simp] theorem paramBkFit_holds : ParamPred.bkFit.Holds s ↔ s.bkFit = true := by
  simp only [State.bkFit, decide_eq_true_eq]; exact Iff.rfl

theorem ringOk_of_params (h : s.nOk = true) (h' : s.kOk = true) : s.ringOk = true := by simp [State.ringOk, h, h']

/-! ### Valid bits (R31) -/

theorem readableS_iff {i : SIdx} : (RegOperand.s i).Readable s ↔ ∃ v, s.getS i = some v := Option.ne_none_iff_exists'

theorem readableP_iff {i : PIdx} : (RegOperand.p i).Readable s ↔ ∃ x, s.pRegs[i] = some x :=
  Option.ne_none_iff_exists'

theorem readableF_iff {i : FIdx} : (RegOperand.f i).Readable s ↔ ∃ x, s.fRegs[i] = some x :=
  Option.ne_none_iff_exists'

theorem readableL_iff {i : LIdx} : (RegOperand.l i).Readable s ↔ ∃ x, s.lRegs[i] = some x :=
  Option.ne_none_iff_exists'

theorem readableR_iff {i : RIdx} : (RegOperand.r i).Readable s ↔ ∃ x, s.rRegs[i] = some x :=
  Option.ne_none_iff_exists'

/-! ### Tags (R34, R35, R37, R351) -/

theorem fitsP_iff {i : Instr} {j : PIdx} {x : PReg} (h : s.pRegs[j] = some x) :
    (RegOperand.p j).Fits i s ↔ x.deg = s.ringN := by simp [RegOperand.Fits, h, State.ringN]

theorem fitsF_iff {i : Instr} {j : FIdx} {x : FReg} (h : s.fRegs[j] = some x) :
    (RegOperand.f j).Fits i s ↔ x.deg = s.ringN := by simp [RegOperand.Fits, h, State.ringN]

theorem fitsL_iff {i : Instr} {j : LIdx} {x : LReg} {d : Nat} (h : s.lRegs[j] = some x) (hd : wantedDim i s = some d) :
    (RegOperand.l j).Fits i s ↔ x.dim = d := by simp [RegOperand.Fits, h, hd]

theorem fitsR_iff {i : Instr} {j : RIdx} {x : RReg} (h : s.rRegs[j] = some x) :
    (RegOperand.r j).Fits i s ↔ x.deg = s.ringN ∧ x.k = s.rankK := by
  simp [RegOperand.Fits, h, State.ringN, State.rankK]

/-! ### The first failing slot (R480 item 4) -/

/-- What `needSlots` answers when the slots before `m` are ready and slot `m` is not. -/
theorem needSlots_first {n m : Nat} {x : Exc} (hm : m < n)
    (hpre : ∀ j, j < m → ∃ g, s.getBk j = some g ∧ bkFits s g = true) (hx : slotFault s m = some x)
    (k : Unit → Result) : needSlots s n k = raise s x := by
  have h0 : (List.range m).findSome? (slotFault s) = none := by
    rw [List.findSome?_eq_none_iff]
    intro j hj
    obtain ⟨g, hg, hf⟩ := hpre j (List.mem_range.mp hj)
    simp [slotFault, hg, hf]
  have hr : List.range n = List.range m ++ m :: (List.range (n - m - 1)).map (m + 1 + ·) := by
    rw [show n = m + (1 + (n - m - 1)) by omega, List.range_add, List.range_add]
    simp [Function.comp_def, Nat.add_assoc]
  rw [needSlots, hr, List.findSome?_append, h0]
  simp [hx]

end Sys2Proof.Machine
end

