-- ==== Sys2Proof/Laws/PerInstr.lean ====
section
/-! SUPPORT. Laws/PerInstr.lean: statements about every instruction as a term, one lemma for each
constructor. Family EncodeMatch: the word of a well-formed instruction matches the row of the opcode map
(R145, R150) that has its mnemonic. -/

namespace Sys2Proof.Laws

/-- The bitwise AND of two words, field by field (R140). -/
theorem join_and (f g : Fields) : f.join &&& g.join =
    Fields.join ⟨f.op &&& g.op, f.d &&& g.d, f.a &&& g.a, f.b &&& g.b, f.c &&& g.c, f.fn &&& g.fn,
      f.imm &&& g.imm⟩ := by
  have a : ∀ {v w : Nat} (x y : BitVec v) (x' y' : BitVec w), (x ++ x') &&& (y ++ y') = (x &&& y) ++ (x' &&& y') :=
    fun x y x' y' => BitVec.and_append
  exact (a ..).trans (congrArg (· ++ _) ((a ..).trans (congrArg (· ++ _) ((a ..).trans (congrArg (· ++ _)
    ((a ..).trans (congrArg (· ++ _) ((a ..).trans (congrArg (· ++ _) (a ..)))))))))) 

/-- The fields of a word spell that word (R140). -/
theorem join_split (w : InstrWord) : (Fields.split w).join = w := by
  simp only [Fields.join, Fields.split]
  ext i hi
  simp only [BitVec.getElem_append, BitVec.getElem_extractLsb']
  repeat' split
  all_goals rw [BitVec.getLsbD_eq_getElem (by omega)]; congr 1; omega

/-- A row matches the word of the given fields when it does so field by field (R140). -/
theorem row_matches (r : OpRow) (f : Fields)
    (hop : f.op &&& (Fields.split r.mask).op = (Fields.split r.pattern).op)
    (hd : f.d &&& (Fields.split r.mask).d = (Fields.split r.pattern).d)
    (ha : f.a &&& (Fields.split r.mask).a = (Fields.split r.pattern).a)
    (hb : f.b &&& (Fields.split r.mask).b = (Fields.split r.pattern).b)
    (hc : f.c &&& (Fields.split r.mask).c = (Fields.split r.pattern).c)
    (hfn : f.fn &&& (Fields.split r.mask).fn = (Fields.split r.pattern).fn)
    (himm : f.imm &&& (Fields.split r.mask).imm = (Fields.split r.pattern).imm) :
    r.matches f.join = true := by
  rw [OpRow.matches, ← join_split r.mask, join_and, hop, hd, ha, hb, hc, hfn, himm]
  exact beq_iff_eq.mpr (join_split r.pattern)

/-- A field the mask leaves free. -/
theorem free_field {w : Nat} (x : BitVec w) {m p : BitVec w} (hm : m = 0) (hp : p = 0) : x &&& m = p := by
  subst hm; subst hp; simp

/-- The immediate of a CSR row (R143, R146). -/
theorem csr_field {csr : Nat} (h : csr < 4096) : BitVec.ofNat 32 csr &&& 0xFFFFF000 = 0 := by
  have h2 : BitVec.ofNat 32 csr = (BitVec.ofNat 12 csr).setWidth 32 := by
    apply BitVec.eq_of_toNat_eq; simp; omega
  rw [h2]
  ext i hi
  simp only [BitVec.getElem_and, BitVec.getElem_setWidth]
  by_cases h12 : i < 12
  · have : (0xFFFFF000#32)[i] = false := by
      have : ∀ j : Fin 12, (0xFFFFF000#32).getLsbD j.val = false := by decide
      rw [← BitVec.getLsbD_eq_getElem]; exact this ⟨i, h12⟩
    simp [this]
  · rw [BitVec.getLsbD_of_ge _ _ (by omega)]; simp

/-- An L or F field keeps its high bit 0 (R142). -/
theorem fld8_field (x : Fin 8) : fld8 x &&& 8 = 0 := by revert x; decide

/-- An R field keeps its two high bits 0 (R142). -/
theorem fld4_field (x : Fin 4) : fld4 x &&& 12 = 0 := by revert x; decide

/-- A field an instruction does not use is 0 (R141). -/
theorem zero_field {w : Nat} {m p : BitVec w} (hp : p = 0) : 0 &&& m = p := by subst hp; simp

/-- The opcode is compared whole (R146). -/
theorem op_field (x : BitVec 8) {m p : BitVec 8} (hm : m = 255) (hp : p = x) : x &&& m = p := by
  subst hm; subst hp; exact BitVec.and_allOnes

/-- FN is 0 in a row without X, or with X = 0 (R144, R146). -/
theorem fn0_field : (0 : BitVec 8) &&& 255 = 0 := by decide

/-- FN is 1 in a row with X = 1 (R144). -/
theorem fn1_field : (1 : BitVec 8) &&& 255 = 1 := by decide

namespace EncodeMatch

/-- The word of a well-formed instruction matches its mnemonic's row of the opcode map. -/
def Statement (i : Instr) : Prop :=
  i.wf = true → ∃ r ∈ opcodeTable, r.mnemonic = i.mnemonic ∧ r.matches (encode i) = true

theorem nop : Statement .nop :=
  fun _ => ⟨_, List.mem_of_getElem? (i := 0) rfl, rfl, row_matches _ _ (op_field _ rfl rfl) (zero_field rfl) (zero_field rfl)
    (zero_field rfl) (zero_field rfl) fn0_field (zero_field rfl)⟩

theorem halt : Statement .halt :=
  fun _ => ⟨_, List.mem_of_getElem? (i := 1) rfl, rfl, row_matches _ _ (op_field _ rfl rfl) (zero_field rfl) (zero_field rfl)
    (zero_field rfl) (zero_field rfl) fn0_field (zero_field rfl)⟩

theorem csrr (d : SIdx) (csr : Nat) : Statement (.csrr d csr) :=
  fun h => ⟨_, List.mem_of_getElem? (i := 2) rfl, rfl, row_matches _ _ (op_field _ rfl rfl) (free_field _ rfl rfl) (zero_field rfl)
    (zero_field rfl) (zero_field rfl) fn0_field (csr_field (of_decide_eq_true h))⟩

theorem csrw (a : SIdx) (csr : Nat) : Statement (.csrw a csr) :=
  fun h => ⟨_, List.mem_of_getElem? (i := 3) rfl, rfl, row_matches _ _ (op_field _ rfl rfl) (zero_field rfl) (free_field _ rfl rfl)
    (zero_field rfl) (zero_field rfl) fn0_field (csr_field (of_decide_eq_true h))⟩

theorem sLi (d : SIdx) (imm : Word) : Statement (.sLi d imm) :=
  fun _ => ⟨_, List.mem_of_getElem? (i := 4) rfl, rfl, row_matches _ _ (op_field _ rfl rfl) (free_field _ rfl rfl) (zero_field rfl)
    (zero_field rfl) (zero_field rfl) fn0_field (free_field _ rfl rfl)⟩

theorem sAddi (d a : SIdx) (imm : Word) : Statement (.sAddi d a imm) :=
  fun _ => ⟨_, List.mem_of_getElem? (i := 5) rfl, rfl, row_matches _ _ (op_field _ rfl rfl) (free_field _ rfl rfl) (free_field _ rfl rfl)
    (zero_field rfl) (zero_field rfl) fn0_field (free_field _ rfl rfl)⟩

theorem sAdd (d a b : SIdx) : Statement (.sAdd d a b) :=
  fun _ => ⟨_, List.mem_of_getElem? (i := 6) rfl, rfl, row_matches _ _ (op_field _ rfl rfl) (free_field _ rfl rfl) (free_field _ rfl rfl)
    (free_field _ rfl rfl) (zero_field rfl) fn0_field (zero_field rfl)⟩

theorem sSub (d a b : SIdx) : Statement (.sSub d a b) :=
  fun _ => ⟨_, List.mem_of_getElem? (i := 7) rfl, rfl, row_matches _ _ (op_field _ rfl rfl) (free_field _ rfl rfl) (free_field _ rfl rfl)
    (free_field _ rfl rfl) (zero_field rfl) fn0_field (zero_field rfl)⟩

theorem sMul (d a b : SIdx) : Statement (.sMul d a b) :=
  fun _ => ⟨_, List.mem_of_getElem? (i := 8) rfl, rfl, row_matches _ _ (op_field _ rfl rfl) (free_field _ rfl rfl) (free_field _ rfl rfl)
    (free_field _ rfl rfl) (zero_field rfl) fn0_field (zero_field rfl)⟩

theorem sAnd (d a b : SIdx) : Statement (.sAnd d a b) :=
  fun _ => ⟨_, List.mem_of_getElem? (i := 9) rfl, rfl, row_matches _ _ (op_field _ rfl rfl) (free_field _ rfl rfl) (free_field _ rfl rfl)
    (free_field _ rfl rfl) (zero_field rfl) fn0_field (zero_field rfl)⟩

theorem sSll (d a b : SIdx) : Statement (.sSll d a b) :=
  fun _ => ⟨_, List.mem_of_getElem? (i := 10) rfl, rfl, row_matches _ _ (op_field _ rfl rfl) (free_field _ rfl rfl) (free_field _ rfl rfl)
    (free_field _ rfl rfl) (zero_field rfl) fn0_field (zero_field rfl)⟩

theorem sSrl (d a b : SIdx) : Statement (.sSrl d a b) :=
  fun _ => ⟨_, List.mem_of_getElem? (i := 11) rfl, rfl, row_matches _ _ (op_field _ rfl rfl) (free_field _ rfl rfl) (free_field _ rfl rfl)
    (free_field _ rfl rfl) (zero_field rfl) fn0_field (zero_field rfl)⟩

theorem sLw (d a : SIdx) (imm : Word) : Statement (.sLw d a imm) :=
  fun _ => ⟨_, List.mem_of_getElem? (i := 12) rfl, rfl, row_matches _ _ (op_field _ rfl rfl) (free_field _ rfl rfl) (free_field _ rfl rfl)
    (zero_field rfl) (zero_field rfl) fn0_field (free_field _ rfl rfl)⟩

theorem sSw (d a : SIdx) (imm : Word) : Statement (.sSw d a imm) :=
  fun _ => ⟨_, List.mem_of_getElem? (i := 13) rfl, rfl, row_matches _ _ (op_field _ rfl rfl) (free_field _ rfl rfl) (free_field _ rfl rfl)
    (zero_field rfl) (zero_field rfl) fn0_field (free_field _ rfl rfl)⟩

theorem beq (a b : SIdx) (imm : Word) : Statement (.beq a b imm) :=
  fun _ => ⟨_, List.mem_of_getElem? (i := 14) rfl, rfl, row_matches _ _ (op_field _ rfl rfl) (zero_field rfl) (free_field _ rfl rfl)
    (free_field _ rfl rfl) (zero_field rfl) fn0_field (free_field _ rfl rfl)⟩

theorem bne (a b : SIdx) (imm : Word) : Statement (.bne a b imm) :=
  fun _ => ⟨_, List.mem_of_getElem? (i := 15) rfl, rfl, row_matches _ _ (op_field _ rfl rfl) (zero_field rfl) (free_field _ rfl rfl)
    (free_field _ rfl rfl) (zero_field rfl) fn0_field (free_field _ rfl rfl)⟩

theorem blt (a b : SIdx) (imm : Word) : Statement (.blt a b imm) :=
  fun _ => ⟨_, List.mem_of_getElem? (i := 16) rfl, rfl, row_matches _ _ (op_field _ rfl rfl) (zero_field rfl) (free_field _ rfl rfl)
    (free_field _ rfl rfl) (zero_field rfl) fn0_field (free_field _ rfl rfl)⟩

theorem bltu (a b : SIdx) (imm : Word) : Statement (.bltu a b imm) :=
  fun _ => ⟨_, List.mem_of_getElem? (i := 17) rfl, rfl, row_matches _ _ (op_field _ rfl rfl) (zero_field rfl) (free_field _ rfl rfl)
    (free_field _ rfl rfl) (zero_field rfl) fn0_field (free_field _ rfl rfl)⟩

theorem jmp (imm : Word) : Statement (.jmp imm) :=
  fun _ => ⟨_, List.mem_of_getElem? (i := 18) rfl, rfl, row_matches _ _ (op_field _ rfl rfl) (zero_field rfl) (zero_field rfl)
    (zero_field rfl) (zero_field rfl) fn0_field (free_field _ rfl rfl)⟩

theorem jal (d : SIdx) (imm : Word) : Statement (.jal d imm) :=
  fun _ => ⟨_, List.mem_of_getElem? (i := 19) rfl, rfl, row_matches _ _ (op_field _ rfl rfl) (free_field _ rfl rfl) (zero_field rfl)
    (zero_field rfl) (zero_field rfl) fn0_field (free_field _ rfl rfl)⟩

theorem jr (a : SIdx) : Statement (.jr a) :=
  fun _ => ⟨_, List.mem_of_getElem? (i := 20) rfl, rfl, row_matches _ _ (op_field _ rfl rfl) (zero_field rfl) (free_field _ rfl rfl)
    (zero_field rfl) (zero_field rfl) fn0_field (zero_field rfl)⟩

theorem mswF (d a b : SIdx) : Statement (.mswF d a b) :=
  fun _ => ⟨_, List.mem_of_getElem? (i := 21) rfl, rfl, row_matches _ _ (op_field _ rfl rfl) (free_field _ rfl rfl) (free_field _ rfl rfl)
    (free_field _ rfl rfl) (zero_field rfl) fn0_field (zero_field rfl)⟩

theorem mswT (d a b : SIdx) : Statement (.mswT d a b) :=
  fun _ => ⟨_, List.mem_of_getElem? (i := 22) rfl, rfl, row_matches _ _ (op_field _ rfl rfl) (free_field _ rfl rfl) (free_field _ rfl rfl)
    (free_field _ rfl rfl) (zero_field rfl) fn0_field (zero_field rfl)⟩

theorem aphase (d a b : SIdx) : Statement (.aphase d a b) :=
  fun _ => ⟨_, List.mem_of_getElem? (i := 23) rfl, rfl, row_matches _ _ (op_field _ rfl rfl) (free_field _ rfl rfl) (free_field _ rfl rfl)
    (free_field _ rfl rfl) (zero_field rfl) fn0_field (zero_field rfl)⟩

theorem gauss (d a : SIdx) : Statement (.gauss d a) :=
  fun _ => ⟨_, List.mem_of_getElem? (i := 24) rfl, rfl, row_matches _ _ (op_field _ rfl rfl) (free_field _ rfl rfl) (free_field _ rfl rfl)
    (zero_field rfl) (zero_field rfl) fn0_field (zero_field rfl)⟩

theorem pClr (d : PIdx) : Statement (.pClr d) :=
  fun _ => ⟨_, List.mem_of_getElem? (i := 25) rfl, rfl, row_matches _ _ (op_field _ rfl rfl) (free_field _ rfl rfl) (zero_field rfl)
    (zero_field rfl) (zero_field rfl) fn0_field (zero_field rfl)⟩

theorem pAdd (d a b : PIdx) : Statement (.pAdd d a b) :=
  fun _ => ⟨_, List.mem_of_getElem? (i := 26) rfl, rfl, row_matches _ _ (op_field _ rfl rfl) (free_field _ rfl rfl) (free_field _ rfl rfl)
    (free_field _ rfl rfl) (zero_field rfl) fn0_field (zero_field rfl)⟩

theorem pSub (d a b : PIdx) : Statement (.pSub d a b) :=
  fun _ => ⟨_, List.mem_of_getElem? (i := 27) rfl, rfl, row_matches _ _ (op_field _ rfl rfl) (free_field _ rfl rfl) (free_field _ rfl rfl)
    (free_field _ rfl rfl) (zero_field rfl) fn0_field (zero_field rfl)⟩

theorem pAddmulz (d a : PIdx) (b : SIdx) : Statement (.pAddmulz d a b) :=
  fun _ => ⟨_, List.mem_of_getElem? (i := 28) rfl, rfl, row_matches _ _ (op_field _ rfl rfl) (free_field _ rfl rfl) (free_field _ rfl rfl)
    (free_field _ rfl rfl) (zero_field rfl) fn0_field (zero_field rfl)⟩

theorem pMulxai (d a : PIdx) (b : SIdx) : Statement (.pMulxai d a b) :=
  fun _ => ⟨_, List.mem_of_getElem? (i := 29) rfl, rfl, row_matches _ _ (op_field _ rfl rfl) (free_field _ rfl rfl) (free_field _ rfl rfl)
    (free_field _ rfl rfl) (zero_field rfl) fn0_field (zero_field rfl)⟩

theorem pMulxaim1 (d a : PIdx) (b : SIdx) : Statement (.pMulxaim1 d a b) :=
  fun _ => ⟨_, List.mem_of_getElem? (i := 30) rfl, rfl, row_matches _ _ (op_field _ rfl rfl) (free_field _ rfl rfl) (free_field _ rfl rfl)
    (free_field _ rfl rfl) (zero_field rfl) fn0_field (zero_field rfl)⟩

theorem pMulfft (d a b : PIdx) : Statement (.pMulfft d a b) :=
  fun _ => ⟨_, List.mem_of_getElem? (i := 31) rfl, rfl, row_matches _ _ (op_field _ rfl rfl) (free_field _ rfl rfl) (free_field _ rfl rfl)
    (free_field _ rfl rfl) (zero_field rfl) fn0_field (zero_field rfl)⟩

theorem pLd (d : PIdx) (a : SIdx) (imm : Word) : Statement (.pLd d a imm) :=
  fun _ => ⟨_, List.mem_of_getElem? (i := 32) rfl, rfl, row_matches _ _ (op_field _ rfl rfl) (free_field _ rfl rfl) (free_field _ rfl rfl)
    (zero_field rfl) (zero_field rfl) fn0_field (free_field _ rfl rfl)⟩

theorem pSt (d : PIdx) (a : SIdx) (imm : Word) : Statement (.pSt d a imm) :=
  fun _ => ⟨_, List.mem_of_getElem? (i := 33) rfl, rfl, row_matches _ _ (op_field _ rfl rfl) (free_field _ rfl rfl) (free_field _ rfl rfl)
    (zero_field rfl) (zero_field rfl) fn0_field (free_field _ rfl rfl)⟩

theorem fClr (d : FIdx) : Statement (.fClr d) :=
  fun _ => ⟨_, List.mem_of_getElem? (i := 34) rfl, rfl, row_matches _ _ (op_field _ rfl rfl) (fld8_field d) (zero_field rfl)
    (zero_field rfl) (zero_field rfl) fn0_field (zero_field rfl)⟩

theorem fFwdi (d : FIdx) (a : PIdx) : Statement (.fFwdi d a) :=
  fun _ => ⟨_, List.mem_of_getElem? (i := 35) rfl, rfl, row_matches _ _ (op_field _ rfl rfl) (fld8_field d) (free_field _ rfl rfl)
    (zero_field rfl) (zero_field rfl) fn0_field (zero_field rfl)⟩

theorem fFwdt (d : FIdx) (a : PIdx) : Statement (.fFwdt d a) :=
  fun _ => ⟨_, List.mem_of_getElem? (i := 36) rfl, rfl, row_matches _ _ (op_field _ rfl rfl) (fld8_field d) (free_field _ rfl rfl)
    (zero_field rfl) (zero_field rfl) fn0_field (zero_field rfl)⟩

theorem fInv (d : PIdx) (a : FIdx) : Statement (.fInv d a) :=
  fun _ => ⟨_, List.mem_of_getElem? (i := 37) rfl, rfl, row_matches _ _ (op_field _ rfl rfl) (free_field _ rfl rfl) (fld8_field a)
    (zero_field rfl) (zero_field rfl) fn0_field (zero_field rfl)⟩

theorem fMuladd (d a b : FIdx) : Statement (.fMuladd d a b) :=
  fun _ => ⟨_, List.mem_of_getElem? (i := 38) rfl, rfl, row_matches _ _ (op_field _ rfl rfl) (fld8_field d) (fld8_field a)
    (fld8_field b) (zero_field rfl) fn0_field (zero_field rfl)⟩

theorem fMono (d : FIdx) (a : SIdx) : Statement (.fMono d a) :=
  fun _ => ⟨_, List.mem_of_getElem? (i := 39) rfl, rfl, row_matches _ _ (op_field _ rfl rfl) (fld8_field d) (free_field _ rfl rfl)
    (zero_field rfl) (zero_field rfl) fn0_field (zero_field rfl)⟩

theorem lEnc (d : LIdx) (a : SIdx) : Statement (.lEnc d a) :=
  fun _ => ⟨_, List.mem_of_getElem? (i := 40) rfl, rfl, row_matches _ _ (op_field _ rfl rfl) (fld8_field d) (free_field _ rfl rfl)
    (zero_field rfl) (zero_field rfl) fn0_field (zero_field rfl)⟩

theorem lEncX (d : LIdx) (a : SIdx) : Statement (.lEncX d a) :=
  fun _ => ⟨_, List.mem_of_getElem? (i := 41) rfl, rfl, row_matches _ _ (op_field _ rfl rfl) (fld8_field d) (free_field _ rfl rfl)
    (zero_field rfl) (zero_field rfl) fn1_field (zero_field rfl)⟩

theorem lDec (d : SIdx) (a : LIdx) (b : SIdx) : Statement (.lDec d a b) :=
  fun _ => ⟨_, List.mem_of_getElem? (i := 42) rfl, rfl, row_matches _ _ (op_field _ rfl rfl) (free_field _ rfl rfl) (fld8_field a)
    (free_field _ rfl rfl) (zero_field rfl) fn0_field (zero_field rfl)⟩

theorem lDecX (d : SIdx) (a : LIdx) (b : SIdx) : Statement (.lDecX d a b) :=
  fun _ => ⟨_, List.mem_of_getElem? (i := 43) rfl, rfl, row_matches _ _ (op_field _ rfl rfl) (free_field _ rfl rfl) (fld8_field a)
    (free_field _ rfl rfl) (zero_field rfl) fn1_field (zero_field rfl)⟩

theorem lPhase (d : SIdx) (a : LIdx) : Statement (.lPhase d a) :=
  fun _ => ⟨_, List.mem_of_getElem? (i := 44) rfl, rfl, row_matches _ _ (op_field _ rfl rfl) (free_field _ rfl rfl) (fld8_field a)
    (zero_field rfl) (zero_field rfl) fn0_field (zero_field rfl)⟩

theorem lPhaseX (d : SIdx) (a : LIdx) : Statement (.lPhaseX d a) :=
  fun _ => ⟨_, List.mem_of_getElem? (i := 45) rfl, rfl, row_matches _ _ (op_field _ rfl rfl) (free_field _ rfl rfl) (fld8_field a)
    (zero_field rfl) (zero_field rfl) fn1_field (zero_field rfl)⟩

theorem lTriv (d : LIdx) (a : SIdx) : Statement (.lTriv d a) :=
  fun _ => ⟨_, List.mem_of_getElem? (i := 46) rfl, rfl, row_matches _ _ (op_field _ rfl rfl) (fld8_field d) (free_field _ rfl rfl)
    (zero_field rfl) (zero_field rfl) fn0_field (zero_field rfl)⟩

theorem lTrivX (d : LIdx) (a : SIdx) : Statement (.lTrivX d a) :=
  fun _ => ⟨_, List.mem_of_getElem? (i := 47) rfl, rfl, row_matches _ _ (op_field _ rfl rfl) (fld8_field d) (free_field _ rfl rfl)
    (zero_field rfl) (zero_field rfl) fn1_field (zero_field rfl)⟩

theorem lAdd (d a : LIdx) : Statement (.lAdd d a) :=
  fun _ => ⟨_, List.mem_of_getElem? (i := 48) rfl, rfl, row_matches _ _ (op_field _ rfl rfl) (fld8_field d) (fld8_field a)
    (zero_field rfl) (zero_field rfl) fn0_field (zero_field rfl)⟩

theorem lSub (d a : LIdx) : Statement (.lSub d a) :=
  fun _ => ⟨_, List.mem_of_getElem? (i := 49) rfl, rfl, row_matches _ _ (op_field _ rfl rfl) (fld8_field d) (fld8_field a)
    (zero_field rfl) (zero_field rfl) fn0_field (zero_field rfl)⟩

theorem lAddmul (d a : LIdx) (b : SIdx) : Statement (.lAddmul d a b) :=
  fun _ => ⟨_, List.mem_of_getElem? (i := 50) rfl, rfl, row_matches _ _ (op_field _ rfl rfl) (fld8_field d) (fld8_field a)
    (free_field _ rfl rfl) (zero_field rfl) fn0_field (zero_field rfl)⟩

theorem lSubmul (d a : LIdx) (b : SIdx) : Statement (.lSubmul d a b) :=
  fun _ => ⟨_, List.mem_of_getElem? (i := 51) rfl, rfl, row_matches _ _ (op_field _ rfl rfl) (fld8_field d) (fld8_field a)
    (free_field _ rfl rfl) (zero_field rfl) fn0_field (zero_field rfl)⟩

theorem lNeg (d a : LIdx) : Statement (.lNeg d a) :=
  fun _ => ⟨_, List.mem_of_getElem? (i := 52) rfl, rfl, row_matches _ _ (op_field _ rfl rfl) (fld8_field d) (fld8_field a)
    (zero_field rfl) (zero_field rfl) fn0_field (zero_field rfl)⟩

theorem lCopy (d a : LIdx) : Statement (.lCopy d a) :=
  fun _ => ⟨_, List.mem_of_getElem? (i := 53) rfl, rfl, row_matches _ _ (op_field _ rfl rfl) (fld8_field d) (fld8_field a)
    (zero_field rfl) (zero_field rfl) fn0_field (zero_field rfl)⟩

theorem lLd (d : LIdx) (a : SIdx) (imm : Word) : Statement (.lLd d a imm) :=
  fun _ => ⟨_, List.mem_of_getElem? (i := 54) rfl, rfl, row_matches _ _ (op_field _ rfl rfl) (fld8_field d) (free_field _ rfl rfl)
    (zero_field rfl) (zero_field rfl) fn0_field (free_field _ rfl rfl)⟩

theorem lLdX (d : LIdx) (a : SIdx) (imm : Word) : Statement (.lLdX d a imm) :=
  fun _ => ⟨_, List.mem_of_getElem? (i := 55) rfl, rfl, row_matches _ _ (op_field _ rfl rfl) (fld8_field d) (free_field _ rfl rfl)
    (zero_field rfl) (zero_field rfl) fn1_field (free_field _ rfl rfl)⟩

theorem lSt (d : LIdx) (a : SIdx) (imm : Word) : Statement (.lSt d a imm) :=
  fun _ => ⟨_, List.mem_of_getElem? (i := 56) rfl, rfl, row_matches _ _ (op_field _ rfl rfl) (fld8_field d) (free_field _ rfl rfl)
    (zero_field rfl) (zero_field rfl) fn0_field (free_field _ rfl rfl)⟩

theorem keyLdl (a : SIdx) (imm : Word) : Statement (.keyLdl a imm) :=
  fun _ => ⟨_, List.mem_of_getElem? (i := 57) rfl, rfl, row_matches _ _ (op_field _ rfl rfl) (zero_field rfl) (free_field _ rfl rfl)
    (zero_field rfl) (zero_field rfl) fn0_field (free_field _ rfl rfl)⟩

theorem rEnc0 (d : RIdx) : Statement (.rEnc0 d) :=
  fun _ => ⟨_, List.mem_of_getElem? (i := 58) rfl, rfl, row_matches _ _ (op_field _ rfl rfl) (fld4_field d) (zero_field rfl)
    (zero_field rfl) (zero_field rfl) fn0_field (zero_field rfl)⟩

theorem rEnc (d : RIdx) (a : PIdx) : Statement (.rEnc d a) :=
  fun _ => ⟨_, List.mem_of_getElem? (i := 59) rfl, rfl, row_matches _ _ (op_field _ rfl rfl) (fld4_field d) (free_field _ rfl rfl)
    (zero_field rfl) (zero_field rfl) fn0_field (zero_field rfl)⟩

theorem rPhase (d : PIdx) (a : RIdx) : Statement (.rPhase d a) :=
  fun _ => ⟨_, List.mem_of_getElem? (i := 60) rfl, rfl, row_matches _ _ (op_field _ rfl rfl) (free_field _ rfl rfl) (fld4_field a)
    (zero_field rfl) (zero_field rfl) fn0_field (zero_field rfl)⟩

theorem rTriv (d : RIdx) (a : PIdx) : Statement (.rTriv d a) :=
  fun _ => ⟨_, List.mem_of_getElem? (i := 61) rfl, rfl, row_matches _ _ (op_field _ rfl rfl) (fld4_field d) (free_field _ rfl rfl)
    (zero_field rfl) (zero_field rfl) fn0_field (zero_field rfl)⟩

theorem rAdd (d a : RIdx) : Statement (.rAdd d a) :=
  fun _ => ⟨_, List.mem_of_getElem? (i := 62) rfl, rfl, row_matches _ _ (op_field _ rfl rfl) (fld4_field d) (fld4_field a)
    (zero_field rfl) (zero_field rfl) fn0_field (zero_field rfl)⟩

theorem rSub (d a : RIdx) : Statement (.rSub d a) :=
  fun _ => ⟨_, List.mem_of_getElem? (i := 63) rfl, rfl, row_matches _ _ (op_field _ rfl rfl) (fld4_field d) (fld4_field a)
    (zero_field rfl) (zero_field rfl) fn0_field (zero_field rfl)⟩

theorem rAddmulr (d : RIdx) (a : PIdx) (b : RIdx) : Statement (.rAddmulr d a b) :=
  fun _ => ⟨_, List.mem_of_getElem? (i := 64) rfl, rfl, row_matches _ _ (op_field _ rfl rfl) (fld4_field d) (free_field _ rfl rfl)
    (fld4_field b) (zero_field rfl) fn0_field (zero_field rfl)⟩

theorem rMulxaim1 (d a : RIdx) (b : SIdx) : Statement (.rMulxaim1 d a b) :=
  fun _ => ⟨_, List.mem_of_getElem? (i := 65) rfl, rfl, row_matches _ _ (op_field _ rfl rfl) (fld4_field d) (fld4_field a)
    (free_field _ rfl rfl) (zero_field rfl) fn0_field (zero_field rfl)⟩

theorem rExtract (d : LIdx) (a : RIdx) (b : SIdx) : Statement (.rExtract d a b) :=
  fun _ => ⟨_, List.mem_of_getElem? (i := 66) rfl, rfl, row_matches _ _ (op_field _ rfl rfl) (fld8_field d) (fld4_field a)
    (free_field _ rfl rfl) (zero_field rfl) fn0_field (zero_field rfl)⟩

theorem rLd (d : RIdx) (a : SIdx) (imm : Word) : Statement (.rLd d a imm) :=
  fun _ => ⟨_, List.mem_of_getElem? (i := 67) rfl, rfl, row_matches _ _ (op_field _ rfl rfl) (fld4_field d) (free_field _ rfl rfl)
    (zero_field rfl) (zero_field rfl) fn0_field (free_field _ rfl rfl)⟩

theorem rSt (d : RIdx) (a : SIdx) (imm : Word) : Statement (.rSt d a imm) :=
  fun _ => ⟨_, List.mem_of_getElem? (i := 68) rfl, rfl, row_matches _ _ (op_field _ rfl rfl) (fld4_field d) (free_field _ rfl rfl)
    (zero_field rfl) (zero_field rfl) fn0_field (free_field _ rfl rfl)⟩

theorem keyLdr (a : SIdx) (imm : Word) : Statement (.keyLdr a imm) :=
  fun _ => ⟨_, List.mem_of_getElem? (i := 69) rfl, rfl, row_matches _ _ (op_field _ rfl rfl) (zero_field rfl) (free_field _ rfl rfl)
    (zero_field rfl) (zero_field rfl) fn0_field (free_field _ rfl rfl)⟩

theorem gDecomp (d a : PIdx) : Statement (.gDecomp d a) :=
  fun _ => ⟨_, List.mem_of_getElem? (i := 70) rfl, rfl, row_matches _ _ (op_field _ rfl rfl) (free_field _ rfl rfl) (free_field _ rfl rfl)
    (zero_field rfl) (zero_field rfl) fn0_field (zero_field rfl)⟩

theorem gEnc (a b : SIdx) : Statement (.gEnc a b) :=
  fun _ => ⟨_, List.mem_of_getElem? (i := 71) rfl, rfl, row_matches _ _ (op_field _ rfl rfl) (zero_field rfl) (free_field _ rfl rfl)
    (free_field _ rfl rfl) (zero_field rfl) fn0_field (zero_field rfl)⟩

theorem gLd (d a : SIdx) (imm : Word) : Statement (.gLd d a imm) :=
  fun _ => ⟨_, List.mem_of_getElem? (i := 72) rfl, rfl, row_matches _ _ (op_field _ rfl rfl) (free_field _ rfl rfl) (free_field _ rfl rfl)
    (zero_field rfl) (zero_field rfl) fn0_field (free_field _ rfl rfl)⟩

theorem gExtprod (d a : RIdx) (b : SIdx) : Statement (.gExtprod d a b) :=
  fun _ => ⟨_, List.mem_of_getElem? (i := 73) rfl, rfl, row_matches _ _ (op_field _ rfl rfl) (fld4_field d) (fld4_field a)
    (free_field _ rfl rfl) (zero_field rfl) fn0_field (zero_field rfl)⟩

theorem ks (d a : LIdx) : Statement (.ks d a) :=
  fun _ => ⟨_, List.mem_of_getElem? (i := 74) rfl, rfl, row_matches _ _ (op_field _ rfl rfl) (fld8_field d) (fld8_field a)
    (zero_field rfl) (zero_field rfl) fn0_field (zero_field rfl)⟩

theorem brRot (d : RIdx) (a : LIdx) (b : SIdx) : Statement (.brRot d a b) :=
  fun _ => ⟨_, List.mem_of_getElem? (i := 75) rfl, rfl, row_matches _ _ (op_field _ rfl rfl) (fld4_field d) (fld8_field a)
    (free_field _ rfl rfl) (zero_field rfl) fn0_field (zero_field rfl)⟩

theorem bootNks (d a : LIdx) (b : SIdx) : Statement (.bootNks d a b) :=
  fun _ => ⟨_, List.mem_of_getElem? (i := 76) rfl, rfl, row_matches _ _ (op_field _ rfl rfl) (fld8_field d) (fld8_field a)
    (free_field _ rfl rfl) (zero_field rfl) fn0_field (zero_field rfl)⟩

theorem boot (d a : LIdx) (b : SIdx) : Statement (.boot d a b) :=
  fun _ => ⟨_, List.mem_of_getElem? (i := 77) rfl, rfl, row_matches _ _ (op_field _ rfl rfl) (fld8_field d) (fld8_field a)
    (free_field _ rfl rfl) (zero_field rfl) fn0_field (zero_field rfl)⟩

end EncodeMatch

end Sys2Proof.Laws
end

