-- ==== Sys2Proof/Laws/Values.lean ====
section
/-! SUPPORT. Laws/Values.lean: small laws of the value operations: draws within their bounds, vectors,
rotations, signed widths, loads, and sums modulo 2^32. -/

open scoped BigOperators

namespace Sys2Proof.Machine

/-! ### Draws -/

/-- R16: a limited draw lies within its limit. -/
theorem bounded_natAbs_le (b : Nat) (r : Int) : (bounded (some b) r).natAbs ≤ b := by
  simp only [bounded]
  have h1 := Int.emod_nonneg (r + b) (show (2 * (b : Int) + 1) ≠ 0 by omega)
  have h2 := Int.emod_lt_of_pos (r + b) (show (0 : Int) < 2 * (b : Int) + 1 by omega)
  omega

/-- R16: every value within the limit is some raw value's, so the limit takes nothing away. -/
theorem bounded_of_natAbs_le {b : Nat} {e : Int} (h : e.natAbs ≤ b) : bounded (some b) e = e := by
  simp only [bounded]
  rw [Int.emod_eq_of_lt (by omega) (by omega)]
  omega

theorem bounded_zero (r : Int) : bounded (some 0) r = 0 := by
  have := bounded_natAbs_le 0 r
  omega

theorem drawGauss_le {al : F64} {k b : Nat} (h : Config.gaussBound al = some b) : (drawGauss al k).natAbs ≤ b := by
  unfold drawGauss; rw [h]; exact bounded_natAbs_le ..

theorem drawErr_le {be : Option Nat} {k b : Nat} (h : be = some b) : (drawErr be k).natAbs ≤ b := by
  unfold drawErr; rw [h]; exact bounded_natAbs_le ..

theorem drawErr_zero (k : Nat) : drawErr (some 0) k = 0 := bounded_zero _

/-! ### Vectors -/

theorem vec_const {α : Type} (n : Nat) (x : α) : vec n (fun _ => x) = List.replicate n x := by simp [vec]

theorem coeff_of_length_le {c : List Word} {i : Nat} (h : c.length ≤ i) : coeff c i = 0 := by
  simp [coeff, List.getD_eq_getElem?_getD, h]

/-- Vectors of one length are equal when their coefficients are. -/
theorem coeff_ext {n : Nat} {x y : List Word} (hx : x.length = n) (hy : y.length = n)
    (h : ∀ i, i < n → coeff x i = coeff y i) : x = y := by
  rw [← vec_coeff x, ← vec_coeff y, hx, hy]; exact vec_congr h

theorem get_vec (n q : Nat) (f : Nat → List Word) (v : F64) :
    Rlwe.get ⟨vec n f, v⟩ q = if q < n then f q else [] := vec_getD ..

theorem icoeff_ints (n : Nat) (c : List Word) (i : Nat) :
    icoeff (ints n c) i = if i < n then (coeff c i).toInt else 0 := icoeff_vec ..

/-- R282: coefficient by coefficient. -/
theorem coeff_rot (n e : Nat) (c : List Word) {i : Nat} (h : i < n) : coeff (rot n e c) i =
    if e < n then (if e ≤ i then coeff c (i - e) else -coeff c (i + n - e))
    else (if e - n ≤ i then -coeff c (i - (e - n)) else coeff c (i + n - (e - n))) := by
  rw [rot, coeff_vec, if_pos h]

/-! ### Signed widths (R17) -/

theorem sbits1_le {z : Int} {b : Nat} (h1 : -2 ^ b ≤ z) (h2 : z < 2 ^ b) : sbits1 z ≤ b + 1 := by
  unfold sbits1
  have hpos : (1:Nat) ≤ 2 ^ b := Nat.one_le_two_pow
  have key : ∀ m : Nat, m < 2 ^ b → (if m = 0 then 1 else m.log2 + 2) ≤ b + 1 := by
    intro m hm
    split
    · omega
    · rename_i h0
      have := (Nat.log2_lt h0).mpr hm
      omega
  have e : ((2 ^ b : Nat) : Int) = 2 ^ b := by push_cast; rfl
  apply key
  split <;> omega

theorem lt_of_sbits1_le {z : Int} {b : Nat} (h : sbits1 z ≤ b + 1) : -2 ^ b ≤ z ∧ z < 2 ^ b := by
  unfold sbits1 at h
  have hpos : (1:Nat) ≤ 2 ^ b := Nat.one_le_two_pow
  have key : ∀ m : Nat, (if m = 0 then 1 else m.log2 + 2) ≤ b + 1 → m < 2 ^ b := by
    intro m hm
    split at hm
    · omega
    · rename_i h0
      exact (Nat.log2_lt h0).mp (by omega)
  have e : ((2 ^ b : Nat) : Int) = 2 ^ b := by push_cast; rfl
  have := key _ h
  split at this <;> constructor <;> omega

theorem sbits_foldl_le (x : List Int) : ∀ {b k : Nat}, k ≤ b → (∀ z ∈ x, sbits1 z ≤ b) →
    x.foldl (fun b z => max b (sbits1 z)) k ≤ b := by
  induction x with
  | nil => intro b k hk _; simpa using hk
  | cons z x ih =>
    intro b k hk h
    rw [List.foldl_cons]
    exact ih (max_le hk (h z (by simp))) fun y hy => h y (by simp [hy])

theorem le_sbits_foldl (x : List Int) : ∀ k, k ≤ x.foldl (fun b z => max b (sbits1 z)) k ∧
    ∀ z ∈ x, sbits1 z ≤ x.foldl (fun b z => max b (sbits1 z)) k := by
  induction x with
  | nil => intro k; simp
  | cons z x ih =>
    intro k
    obtain ⟨h1, h2⟩ := ih (max k (sbits1 z))
    refine ⟨by simp only [List.foldl_cons]; omega, fun y hy => ?_⟩
    rcases List.mem_cons.mp hy with rfl | hy
    · simp only [List.foldl_cons]; omega
    · exact h2 y hy

theorem one_le_sbits (x : List Int) : 1 ≤ sbits x := (le_sbits_foldl x 1).1

/-- R17: a vector fits its signed width. -/
theorem sbits_spec {x : List Int} {z : Int} (h : z ∈ x) : -2 ^ (sbits x - 1) ≤ z ∧ z < 2 ^ (sbits x - 1) := by
  have h1 := (le_sbits_foldl x 1).2 z h
  have h2 := one_le_sbits x
  exact lt_of_sbits1_le (by unfold sbits at *; omega)

/-! ### Words as residues (R11) -/

@[simp] theorem u32_toInt (x : Word) : u32 x.toInt = x := BitVec.ofInt_toInt

theorem u32_add (x y : Int) : u32 (x + y) = u32 x + u32 y := BitVec.ofInt_add ..

theorem u32_mul (x y : Int) : u32 (x * y) = u32 x * u32 y := BitVec.ofInt_mul ..

theorem u32_natCast (n : Nat) : u32 (n : Int) = BitVec.ofNat 32 n := BitVec.ofInt_natCast ..

@[simp] theorem u32_zero : u32 0 = 0 := rfl

theorem u32_neg (x : Int) : u32 (-x) = -u32 x := BitVec.ofInt_neg

theorem u32_sub (x y : Int) : u32 (x - y) = u32 x - u32 y := by
  rw [Int.sub_eq_add_neg, u32_add, u32_neg, BitVec.sub_eq_add_neg]

theorem u32_sum {ι : Type} (t : Finset ι) (f : ι → Int) : u32 (∑ i ∈ t, f i) = ∑ i ∈ t, u32 (f i) := by
  classical
  induction t using Finset.induction_on with
  | empty => simp
  | insert a t ha ih => rw [Finset.sum_insert ha, Finset.sum_insert ha, u32_add, ih]

/-! ### Transfers -/

/-- R14, R107: the words a checked load reads, and that it changes the number of draws only. -/
theorem loaded_spec (s : State) (ea : Word) (cnt : Nat) : ∃ (c : List Word) (draws : Nat), c.length = cnt ∧
    (∀ i, i < cnt → ∀ v, memWord s.dmem (ea.toNat + 4 * i) = some v → coeff c i = v) ∧
    loaded s ea cnt = c ∧ s.afterLoad ea cnt = s.bump draws := by
  refine ⟨loaded s ea cnt, (loadWords s.dmem s.drawCtr ea.toNat cnt).2 - s.drawCtr, by simp [loaded],
    fun i hi v hv => ?_, rfl, ?_⟩
  · simp [loaded, loadWords, coeff_vec, hi, hv]
  · have := loadWords_le s.dmem s.drawCtr ea.toNat cnt
    unfold State.afterLoad State.bump
    congr 1; omega

theorem vec_coeff_of_length {c : List Word} {n : Nat} (h : c.length = n) : vec n (coeff c) = c := by
  rw [← h, vec_coeff]

/-- A transfer whose words were all written draws nothing (R107). -/
theorem loaded_written (s : State) (ea : Word) (cnt : Nat) (w : Nat → Word)
    (h : ∀ i, i < cnt → memWord s.dmem (ea.toNat + 4 * i) = some (w i)) :
    loaded s ea cnt = vec cnt w ∧ s.afterLoad ea cnt = s := by
  have : loadWords s.dmem s.drawCtr ea.toNat cnt = (vec cnt w, s.drawCtr) := by
    refine loadWords_written (by simp) fun i hi => ?_
    rw [h i hi, coeff_vec, if_pos hi]
  simp [loaded, State.afterLoad, this]

/-- R104, R111, R113: the two words of a variance make it up again. -/
theorem f64_halves (v : F64) : (v.extractLsb' 32 32 ++ v.extractLsb' 0 32 : BitVec 64) = v := by
  apply BitVec.eq_of_toNat_eq
  rw [BitVec.toNat_append, BitVec.extractLsb'_toNat, BitVec.extractLsb'_toNat,
    ← Nat.shiftLeft_add_eq_or_of_lt (Nat.mod_lt _ (by norm_num)), Nat.shiftLeft_eq, Nat.shiftRight_eq_div_pow,
    Nat.shiftRight_eq_div_pow]
  have := v.isLt
  omega

/-- R115: the bad key word of lowest index is the one reported. -/
theorem badKeyWord_first (n : Nat) (w : Nat → Word) {i : Nat} (hi : i < n) (h0 : w i ≠ 0) (h1 : w i ≠ 1)
    (hj : ∀ j, j < i → w j = 0 ∨ w j = 1) : badKeyWord (vec n w) = some (w i) := by
  have : vec n w = vec i w ++ w i :: (List.range' (i + 1) (n - i - 1)).map w := by
    simp only [vec]
    rw [List.range_eq_range', List.range_eq_range', show n = i + ((n - i - 1) + 1) by omega,
      ← List.range'_append_1]
    simp [List.range'_succ]
  have hb : (w i != 0 && w i != 1) = true := by rw [bne_iff_ne.mpr h0, bne_iff_ne.mpr h1]; rfl
  rw [badKeyWord, this, List.find?_append, List.find?_eq_none.mpr]
  · simp only [List.find?_cons, hb, Option.none_or]
  · intro x hx
    obtain ⟨j, hj', rfl⟩ := mem_vec.mp hx
    rcases hj j hj' with h | h <;> simp [h]

/-- R406: Σ p[i]². -/
theorem normSq_eq (n : Nat) (c : List Word) :
    normSq (ints n c) = ∑ i ∈ Finset.range n, (coeff c i).toInt ^ 2 := by
  unfold normSq ints vec
  rw [List.map_map]
  induction n with
  | zero => rfl
  | succ n ih =>
    rw [List.range_succ, List.map_append, List.sum_append, ih, Finset.sum_range_succ]
    simp [pow_two]

/-- R352: the inner product as a sum of words. -/
theorem dot_eq (n : Nat) (a : List Word) (key : List Bool) :
    dot n a key = ∑ i ∈ Finset.range n, coeff a i * u32 (bitAt key i) := by
  rw [dot, u32_sum]
  refine Finset.sum_congr rfl fun i _ => ?_
  rw [u32_mul, u32_natCast, BitVec.ofNat_toNat, BitVec.setWidth_eq]

theorem dot_vec (n : Nat) (f : Nat → Word) (key : List Bool) :
    dot n (vec n f) key = ∑ i ∈ Finset.range n, f i * u32 (bitAt key i) := by
  rw [dot_eq]
  exact Finset.sum_congr rfl fun i hi => by rw [coeff_vec, if_pos (Finset.mem_range.mp hi)]

end Sys2Proof.Machine
end

