-- ==== Sys2Proof/Laws/Sequences.lean ====
section
/-! SUPPORT. Laws/Sequences.lean: laws of the operations that repeat a write or a draw (G.DECOMP's run of
registers, the key-switch loop, the blind rotation), and of the BK store. -/

namespace Sys2Proof.Machine

/-! ### BK slots -/

/-- The BK store is read through `bk` only. -/
theorem getBk_congr {s t : State} (h : t.bk = s.bk) (slot : Nat) : t.getBk slot = s.getBk slot := by
  unfold State.getBk; rw [h]

/-- R441, R442: a slot reads what was last written to it. -/
theorem getBk_setBk (s : State) (slot j : Nat) (rows : List Rlwe) : (s.setBk slot rows).getBk j =
    if j = slot then some ⟨s.ringN, s.rankK, s.gadL, s.gadBits, rows⟩ else s.getBk j := by
  unfold State.getBk State.setBk
  rw [assocGet_assocSet]

/-! ### G.DECOMP's run (R440) -/

/-- A run of P writes changes the P file only. -/
theorem setPs_frame (cs : List (List Word)) : ∀ (s : State) (d : Nat),
    { s.setPs d cs with pRegs := s.pRegs } = s := by
  induction cs with
  | nil => intro s d; rfl
  | cons c cs ih =>
    intro s d
    unfold State.setPs
    split
    · rename_i h
      exact congrArg (fun q : State => { q with pRegs := s.pRegs }) (ih (s.setP ⟨d, h⟩ c) (d + 1))
    · rfl

/-- A field that a run of P writes keeps. -/
theorem setPs_keeps {α : Type} (f : State → α) (hf : ∀ (s : State) p, f { s with pRegs := p } = f s)
    (s : State) (d : Nat) (cs : List (List Word)) : f (s.setPs d cs) = f s := by
  have h := congrArg f (setPs_frame cs s d)
  rwa [hf] at h

/-- Register `j` after a run of P writes that ends at P15 or before. -/
theorem setPs_pRegs (cs : List (List Word)) : ∀ (s : State) (d : Nat), d + cs.length ≤ 16 → ∀ j : PIdx,
    (s.setPs d cs).pRegs[j] =
      if d ≤ j.val ∧ j.val < d + cs.length then some ⟨s.ringN, cs.getD (j.val - d) []⟩ else s.pRegs[j] := by
  induction cs with
  | nil => intro s d _ j; simp [State.setPs]
  | cons c cs ih =>
    intro s d hd j
    simp only [List.length_cons] at hd
    have hd16 : d < 16 := by omega
    simp only [State.setPs, hd16, dif_pos]
    rw [ih (s.setP ⟨d, hd16⟩ c) (d + 1) (by omega) j]
    have hr : (s.setP ⟨d, hd16⟩ c).ringN = s.ringN := rfl
    rw [hr]
    by_cases hj : j.val = d
    · rw [if_neg (by omega), if_pos (by simp; omega)]
      simp [hj]
    · by_cases hj2 : d + 1 ≤ j.val ∧ j.val < d + 1 + cs.length
      · rw [if_pos hj2, if_pos (by simp; omega), show j.val - d = (j.val - (d + 1)) + 1 by omega,
          List.getD_cons_succ]
      · rw [if_neg hj2, if_neg (by simp; omega), State.setP_pRegs]
        show (s.pRegs.set d _ _)[j.val] = _
        rw [Vector.getElem_set, if_neg (by omega)]
        rfl

/-! ### Draws only ever count up -/

theorem foldl_snd_le {α β : Type} (f : α × Nat → β → α × Nat) (h : ∀ a b, a.2 ≤ (f a b).2) (l : List β)
    (a : α × Nat) : a.2 ≤ (l.foldl f a).2 := by
  induction l generalizing a with
  | nil => exact Nat.le_refl _
  | cons b l ih => exact Nat.le_trans (h a b) (ih _)

theorem ksStep_le (m : Memory) (base n t bb : Nat) (cin : LReg) (i : Nat) (acc : LReg × Nat) (j : Nat) :
    acc.2 ≤ (ksStep m base n t bb cin i acc j).2 := by
  unfold ksStep
  simp only
  split
  · exact Nat.le_refl _
  · exact loadWords_le ..

/-- R465: the draw counter after a key switch. -/
theorem keySwitch_le (m : Memory) (base nSrc n t bb : Nat) (cin : LReg) (c : Nat) :
    c ≤ (keySwitch m base nSrc n t bb cin c).2 := by
  unfold keySwitch
  exact foldl_snd_le (fun (acc : LReg × Nat) (i : Nat) => (List.range t).foldl (ksStep m base n t bb cin i) acc)
    (fun a i => foldl_snd_le _ (fun a j => ksStep_le ..) _ _) _ (lweTrivial n cin.b, c)

theorem blindStep_le (n k l bgbit : Nat) (bk : Assoc Rgsw) (c : LReg) (acc : Rlwe × Nat) (i : Nat) :
    acc.2 ≤ (blindStep n k l bgbit bk c acc i).2 := by
  unfold blindStep
  simp only
  split
  · exact Nat.le_refl _
  · exact Nat.le_add_right ..

/-- R484: the draw counter after a blind rotation. -/
theorem blindRotate_le (n k l bgbit : Nat) (bk : Assoc Rgsw) (c : LReg) (mu : Word) (c0 : Nat) :
    c0 ≤ (blindRotate n k l bgbit bk c mu c0).2 := by
  unfold blindRotate
  exact foldl_snd_le (blindStep n k l bgbit bk c) (fun a i => blindStep_le ..) _ (preRotate n k c.b mu, c0)

/-- The blind rotation reads the sample's dimension only to count its iterations. -/
theorem blindStep_dim (n k l bgbit : Nat) (bk : Assoc Rgsw) (c : LReg) (d : Nat) (acc : Rlwe × Nat) (i : Nat) :
    blindStep n k l bgbit bk { c with dim := d } acc i = blindStep n k l bgbit bk c acc i := by
  unfold blindStep; simp only

end Sys2Proof.Machine
end

