-- ==== Sys2Proof/Machine/Asm.lean ====
section
/-! DEFINITION. Machine/Asm.lean: the assembler spelling of the instruction words (spec 30_encoding.md R170)
and the pseudo-instructions (R171). One table of operand shapes, the "syntax" column of
opcode_table.json, serves both the assembler and the printer. Nothing in the step reads this file. -/

namespace Sys2Proof.Machine

/-! ### Operand shapes -/

/-- R140: the three register fields. -/
inductive RegField where
  | d | a | b
deriving DecidableEq, Repr

/-- R170: one operand of an instruction's spelling. -/
inductive Opnd where
  /-- a register: the letter and count of its file (R142), and its field -/
  | reg (letter : Char) (count : Nat) (field : RegField)
  /-- a CSR number or name -/
  | csr
  /-- imm32 -/
  | imm
  /-- a branch or jump target: a label, or the offset itself -/
  | label
  /-- imm(sA) -/
  | mem
deriving DecidableEq, Repr

/-- An S register in field D, A or B (R142). -/
def sD : Opnd := .reg 's' 16 .d
/-- An S register in field A. -/
def sA : Opnd := .reg 's' 16 .a
/-- An S register in field B. -/
def sB : Opnd := .reg 's' 16 .b
/-- A P register in field D. -/
def pD : Opnd := .reg 'p' 16 .d
/-- A P register in field A. -/
def pA : Opnd := .reg 'p' 16 .a
/-- A P register in field B. -/
def pB : Opnd := .reg 'p' 16 .b
/-- An F register in field D. -/
def fD : Opnd := .reg 'f' 8 .d
/-- An F register in field A. -/
def fA : Opnd := .reg 'f' 8 .a
/-- An F register in field B. -/
def fB : Opnd := .reg 'f' 8 .b
/-- An L register in field D. -/
def lD : Opnd := .reg 'l' 8 .d
/-- An L register in field A. -/
def lA : Opnd := .reg 'l' 8 .a
/-- An R register in field D. -/
def rD : Opnd := .reg 'r' 4 .d
/-- An R register in field A. -/
def rA : Opnd := .reg 'r' 4 .a
/-- An R register in field B. -/
def rB : Opnd := .reg 'r' 4 .b

/-- R170: the operands of each mnemonic in the order written, first half. -/
def asmShapesLow : List (String × List Opnd) := [
  ("NOP", []),
  ("HALT", []),
  ("CSRR", [sD, .csr]),
  ("CSRW", [.csr, sA]),
  ("S.LI", [sD, .imm]),
  ("S.ADDI", [sD, sA, .imm]),
  ("S.ADD", [sD, sA, sB]),
  ("S.SUB", [sD, sA, sB]),
  ("S.MUL", [sD, sA, sB]),
  ("S.AND", [sD, sA, sB]),
  ("S.SLL", [sD, sA, sB]),
  ("S.SRL", [sD, sA, sB]),
  ("S.LW", [sD, .mem]),
  ("S.SW", [sD, .mem]),
  ("BEQ", [sA, sB, .label]),
  ("BNE", [sA, sB, .label]),
  ("BLT", [sA, sB, .label]),
  ("BLTU", [sA, sB, .label]),
  ("JMP", [.label]),
  ("JAL", [sD, .label]),
  ("JR", [sA]),
  ("MSW.F", [sD, sA, sB]),
  ("MSW.T", [sD, sA, sB]),
  ("APHASE", [sD, sA, sB]),
  ("GAUSS", [sD, sA]),
  ("P.CLR", [pD]),
  ("P.ADD", [pD, pA, pB]),
  ("P.SUB", [pD, pA, pB]),
  ("P.ADDMULZ", [pD, pA, sB]),
  ("P.MULXAI", [pD, pA, sB]),
  ("P.MULXAIM1", [pD, pA, sB]),
  ("P.MULFFT", [pD, pA, pB]),
  ("P.LD", [pD, .mem]),
  ("P.ST", [pD, .mem]),
  ("F.CLR", [fD]),
  ("F.FWDI", [fD, pA]),
  ("F.FWDT", [fD, pA]),
  ("F.INV", [pD, fA]),
  ("F.MULADD", [fD, fA, fB])]

/-- R170: the operands of each mnemonic in the order written, second half. -/
def asmShapesHigh : List (String × List Opnd) := [
  ("F.MONO", [fD, sA]),
  ("L.ENC", [lD, sA]),
  ("L.DEC", [sD, lA, sB]),
  ("L.PHASE", [sD, lA]),
  ("L.TRIV", [lD, sA]),
  ("L.ENC.X", [lD, sA]),
  ("L.DEC.X", [sD, lA, sB]),
  ("L.PHASE.X", [sD, lA]),
  ("L.TRIV.X", [lD, sA]),
  ("L.ADD", [lD, lA]),
  ("L.SUB", [lD, lA]),
  ("L.ADDMUL", [lD, lA, sB]),
  ("L.SUBMUL", [lD, lA, sB]),
  ("L.NEG", [lD, lA]),
  ("L.COPY", [lD, lA]),
  ("L.LD", [lD, .mem]),
  ("L.LD.X", [lD, .mem]),
  ("L.ST", [lD, .mem]),
  ("KEY.LDL", [.mem]),
  ("R.ENC0", [rD]),
  ("R.ENC", [rD, pA]),
  ("R.PHASE", [pD, rA]),
  ("R.TRIV", [rD, pA]),
  ("R.ADD", [rD, rA]),
  ("R.SUB", [rD, rA]),
  ("R.ADDMULR", [rD, pA, rB]),
  ("R.MULXAIM1", [rD, rA, sB]),
  ("R.EXTRACT", [lD, rA, sB]),
  ("R.LD", [rD, .mem]),
  ("R.ST", [rD, .mem]),
  ("KEY.LDR", [.mem]),
  ("G.DECOMP", [pD, pA]),
  ("G.ENC", [sA, sB]),
  ("G.LD", [sD, .mem]),
  ("G.EXTPROD", [rD, rA, sB]),
  ("KS", [lD, lA]),
  ("BR.ROT", [rD, lA, sB]),
  ("BOOT.NKS", [lD, lA, sB]),
  ("BOOT", [lD, lA, sB])]

/-- R170: the operands of each mnemonic in the order written. -/
def asmShapes : List (String × List Opnd) := asmShapesLow ++ asmShapesHigh

/-- R51, R53, R54: the CSR names an operand may spell. -/
def csrNames : List (String × Nat) := [
  ("N", 0x000), ("K", 0x001), ("LWE_N", 0x002), ("BK_L", 0x003), ("BK_BGBIT", 0x004), ("KS_T", 0x005),
  ("KS_BASEBIT", 0x006), ("ENC_ALPHA_LO", 0x007), ("ENC_ALPHA_HI", 0x008), ("KSK_BASE", 0x009),
  ("BG", 0x010), ("HALF_BG", 0x011), ("BG_MASK", 0x012), ("DEC_OFFSET", 0x013), ("KPL", 0x014),
  ("KS_PREC", 0x015), ("EXT_N", 0x016), ("CFG_VALID", 0x017), ("KEYSTAT", 0x018),
  ("ID", 0x0F0), ("VERSION", 0x0F1), ("NMAX", 0x0F2), ("DIMMAX", 0x0F3), ("BKSLOTS", 0x0F4),
  ("DMEMSIZE", 0x0F5), ("IMEMSIZE", 0x0F6)]

/-! ### Text -/

/-- A run of characters. -/
abbrev Text := List Char

/-- The value a text names in a list of names. -/
def lookupText {α : Type} (t : Text) : List (String × α) → Option α
  | [] => none
  | (n, v) :: rest => if n.toList = t then some v else lookupText t rest

/-- The value a label names. DESIGN CHOICE (log 21): R170 is silent on a label defined twice; the first
definition is taken. Labels are compared letter for letter, a choice too. -/
def lookupLabel (t : Text) : List (Text × Word) → Option Word
  | [] => none
  | (n, v) :: rest => if n = t then some v else lookupLabel t rest

/-- A blank: space, tab or carriage return (DESIGN CHOICE, log 21: R170 does not say what separates words). -/
def isBlank (c : Char) : Bool := c == ' ' || c == Char.ofNat 9 || c == Char.ofNat 13

/-- A text without the blanks around it. -/
def trimText (t : Text) : Text := ((t.dropWhile isBlank).reverse.dropWhile isBlank).reverse

/-- R170: mnemonics are case-insensitive. -/
def upperText (t : Text) : Text := t.map Char.toUpper

/-- R170: `;` starts a comment. -/
def stripComment (t : Text) : Text := t.takeWhile fun c => c != ';'

/-- The pieces of a text between separators. -/
def splitText (sep : Char) : Text → List Text
  | [] => [[]]
  | c :: cs =>
    match splitText sep cs with
    | [] => [[c]]
    | p :: ps => if c == sep then [] :: p :: ps else (c :: p) :: ps

/-- The digit a character spells in a base, a letter in either case (log 21). -/
def digitOf (base : Nat) (c : Char) : Option Nat :=
  let n := c.toNat
  let v := if 48 ≤ n ∧ n ≤ 57 then n - 48 else if 97 ≤ n ∧ n ≤ 102 then n - 87
    else if 65 ≤ n ∧ n ≤ 70 then n - 55 else 16
  if v < base then some v else none

/-- The digits of a number, most significant first. -/
def parseDigits (base acc : Nat) : Text → Option Nat
  | [] => some acc
  | c :: cs =>
    match digitOf base c with
    | some v => parseDigits base (acc * base + v) cs
    | none => none

/-- A number of at least one digit. -/
def parseNumber (base : Nat) (t : Text) : Option Nat := if t.isEmpty then none else parseDigits base 0 t

/-- R170: an immediate, decimal (optionally negative) or 0x hexadecimal, reduced modulo 2^32. DESIGN CHOICE
(log 21): hexadecimal digits in either case, leading zeros accepted, the `x` of the prefix lower case, and no
sign before the prefix. -/
def parseImm (t : Text) : Option Word :=
  match t with
  | '0' :: 'x' :: cs => (parseNumber 16 cs).map fun v => BitVec.ofNat 32 v
  | '-' :: cs => (parseNumber 10 cs).map fun v => -BitVec.ofNat 32 v
  | cs => (parseNumber 10 cs).map fun v => BitVec.ofNat 32 v

/-! ### Assembling one line -/

/-- Puts a register number into its field (R140). -/
def RegField.put (f : RegField) (x : BitVec 4) (w : Fields) : Fields :=
  match f with
  | .d => { w with d := x }
  | .a => { w with a := x }
  | .b => { w with b := x }

/-- The register number in a field (R140). -/
def RegField.get (f : RegField) (w : Fields) : BitVec 4 :=
  match f with
  | .d => w.d
  | .a => w.a
  | .b => w.b

/-- R170: a register of the given file. DESIGN CHOICE (log 21): the letter is lower case, as R170 spells it,
and leading zeros of the number are accepted. -/
def parseReg (letter : Char) (count : Nat) (t : Text) : Option (BitVec 4) :=
  match t with
  | c :: cs =>
    match parseNumber 10 cs with
    | some v => if c == letter && decide (v < count) then some (BitVec.ofNat 4 v) else none
    | none => none
  | [] => none

/-- R170: a CSR operand, a name or a number of 12 bits (R143). DESIGN CHOICE (log 21): R170 makes mnemonics
case-insensitive and is silent on CSR names; they are accepted in any letter case. A name is tried first. -/
def parseCsr (t : Text) : Option Word :=
  match lookupText (upperText t) csrNames with
  | some c => some (BitVec.ofNat 32 c)
  | none =>
    match parseImm t with
    | some v => if v.toNat < 4096 then some v else none
    | none => none

/-- R170: one operand put into the fields of the word at `pc`. A label assembles to `label − pc`. DESIGN CHOICE
(log 21): a branch operand that is no label may be the offset itself as a number; a label is tried first. -/
def parseOperand (labels : List (Text × Word)) (pc : Word) (o : Opnd) (t : Text) (w : Fields) : Option Fields :=
  match o with
  | .reg letter count f => (parseReg letter count t).map fun x => f.put x w
  | .csr => (parseCsr t).map fun v => { w with imm := v }
  | .imm => (parseImm t).map fun v => { w with imm := v }
  | .label =>
    match lookupLabel t labels with
    | some v => some { w with imm := v - pc }
    | none => (parseImm t).map fun v => { w with imm := v }
  | .mem =>
    match splitText '(' t with
    | [x, y] =>
      match splitText ')' y with
      | [r, []] =>
        match parseImm (trimText x), parseReg 's' 16 (trimText r) with
        | some v, some b => some { w with a := b, imm := v }
        | _, _ => none
      | _ => none
    | _ => none

/-- Every operand in turn; as many as the shape has. -/
def parseOperands (labels : List (Text × Word)) (pc : Word) : List Opnd → List Text → Fields → Option Fields
  | [], [], w => some w
  | o :: os, t :: ts, w =>
    match parseOperand labels pc o t w with
    | some w' => parseOperands labels pc os ts w'
    | none => none
  | _, _, _ => none

/-- R171: a pseudo-instruction's one instruction, on the texts of its operands; any other line is itself. -/
def expandPseudo (m : Text) (ops : List Text) : Text × List Text :=
  let s0 : Text := ['s', '0']
  let s15 : Text := ['s', '1', '5']
  let is (name : String) : Bool := m == name.toList
  match ops with
  | [] => if is "RET" then ("JR".toList, [s15]) else (m, ops)
  | [x] =>
    if is "J" then ("JMP".toList, [x])
    else if is "CALL" then ("JAL".toList, [s15, x])
    else (m, ops)
  | [x, y] =>
    if is "MV" then ("S.ADDI".toList, [x, y, ['0']])
    else if is "BEQZ" then ("BEQ".toList, [x, s0, y])
    else if is "BNEZ" then ("BNE".toList, [x, s0, y])
    else if is "P.MOV" then ("P.MULXAI".toList, [x, y, s0])
    else if is "P.ADDTO" then ("P.ADD".toList, [x, x, y])
    else if is "P.SUBTO" then ("P.SUB".toList, [x, x, y])
    else if is "L.NOT" then ("L.NEG".toList, ops)
    else (m, ops)
  | [x, y, z] =>
    if is "BGT" then ("BLT".toList, [y, x, z])
    else if is "BGTU" then ("BLTU".toList, [y, x, z])
    else (m, ops)
  | _ => (m, ops)

/-- The word an opcode row requires (R150). -/
def matchOf (m : Text) : List OpRow → Option InstrWord
  | [] => none
  | r :: rest => if r.mnemonic.toList = m then some r.pattern else matchOf m rest

/-- The operand texts of the part of a line after its mnemonic. -/
def operandTexts (t : Text) : List Text :=
  if (trimText t).isEmpty then [] else (splitText ',' t).map trimText

/-- R170: the word of one statement without label and comment, at `pc`. -/
def assembleStatement (labels : List (Text × Word)) (pc : Word) (t : Text) : Option InstrWord :=
  let m := upperText (t.takeWhile fun c => !isBlank c)
  let (m, ops) := expandPseudo m (operandTexts (t.dropWhile fun c => !isBlank c))
  match lookupText m asmShapes, matchOf m opcodeTable with
  | some shape, some w => (parseOperands labels pc shape ops (Fields.split w)).map Fields.join
  | _, _ => none

/-! ### Assembling a program -/

/-- A line after its comment is gone: the labels before its statement, and the statement (maybe empty). DESIGN
CHOICE (log 21): a line may hold several labels or no instruction, and any text before a colon is a label. -/
def splitLabels (t : Text) : List Text × Text :=
  match (splitText ':' t).reverse with
  | [] => ([], [])
  | st :: labels => ((labels.map trimText).reverse, trimText st)

/-- R170: `label:` names the address of the next instruction. -/
def labelsOf (pc : Word) : List (List Text × Text) → List (Text × Word)
  | [] => []
  | (ls, st) :: rest => ls.map (fun l => (l, pc)) ++ labelsOf (if st.isEmpty then pc else pc + 8) rest

/-- The words of the statements, from `pc` on. -/
def assembleFrom (labels : List (Text × Word)) (pc : Word) : List (List Text × Text) → Option (List InstrWord)
  | [] => some []
  | (_, st) :: rest =>
    if st.isEmpty then assembleFrom labels pc rest
    else
      match assembleStatement labels pc st, assembleFrom labels (pc + 8) rest with
      | some w, some ws => some (w :: ws)
      | _, _ => none

/-- R170: the words of a program whose first instruction stands at `base`; one statement a line. DESIGN CHOICE
(log 21): a program with a line that R170 gives no meaning has no words. -/
def assemble (base : Word) (lines : List Text) : Option (List InstrWord) :=
  let ls := lines.map fun t => splitLabels (stripComment t)
  assembleFrom (labelsOf base ls) base ls

/-! ### Printing -/

/-- The spelling of one operand: registers by letter and number; CSRs, immediates and branch offsets as unsigned
decimal numbers (DESIGN CHOICE, log 21: R170 accepts other spellings of the same word). -/
def Opnd.print (w : Fields) : Opnd → String
  | .reg letter _ f => letter.toString ++ toString (f.get w).toNat
  | .csr => toString (csrOf w.imm)
  | .imm => toString w.imm.toNat
  | .label => toString w.imm.toNat
  | .mem => toString w.imm.toNat ++ "(s" ++ toString w.a.toNat ++ ")"

/-- R170, R171: the spelling of an instruction, what a disassembler prints. -/
def printInstr (i : Instr) : String :=
  let ops := ((lookupText i.mnemonic.toList asmShapes).getD []).map (Opnd.print (encodeFields i))
  if ops.isEmpty then i.mnemonic else i.mnemonic ++ " " ++ String.intercalate ", " ops

end Sys2Proof.Machine
end

