-- ==== Sys2Proof/Tests/Slice0.lean ====
section
/-! SUPPORT. Tests/Slice0.lean: the model against the spec's own examples and vectors (the rule is named at
each test; "95" is spec/95_test_vectors.md), and for every statement with hypotheses a state and operands
that meet them. Expected values are the spec's, never the model's answer. -/

open Sys2Proof Sys2Proof.Machine

namespace Sys2Proof.Machine

/-- S registers set one after the other. -/
def State.sets (s : State) (l : List (SIdx × Word)) : State := l.foldl (fun s p => s.setS p.1 p.2) s

/-- P registers of the current degree set one after the other. -/
def State.polys (s : State) (l : List (PIdx × List Word)) : State := l.foldl (fun s p => s.setP p.1 p.2) s

/-- L registers set one after the other. -/
def State.lwes (s : State) (l : List (LIdx × LReg)) : State := l.foldl (fun s p => s.setL p.1 p.2) s

/-- DMEM words stored from an address on. -/
def State.words (s : State) (addr : Nat) (ws : List Word) : State := s.store addr ws

end Sys2Proof.Machine

namespace Sys2Proof.Tests

-- One kernel evaluation at a time: many at once run out of threads under check.sh's memory limit.
set_option Elab.async false

/-! ### Decoding (R140 to R151; 95 §2.1) -/

/-- A table word decodes to the instruction. -/
def decodesTo (p : Nat × Instr) : Bool := decodeTableWord 64 p.1 == some p.2

/-- A word is ILLEGAL_INSTR (R147). -/
def isIllegal (w : InstrWord) : Bool := match decode w with | .ok _ => false | .error _ => true

/-- R150: a word of every row, its fields written into the row's encoding. -/
theorem test_decode_control :
    ([
      (0x0000000000000001, .nop), (0x0000000000000002, .halt),
      (0x00000ABC00000D03, .csrr 13 0xABC), (0x00000ABC0000A004, .csrw 10 0xABC),
      (0x8000000800000D10, .sLi 13 0x80000008), (0x800000080000AD11, .sAddi 13 10 0x80000008),
      (0x000000000007AD12, .sAdd 13 10 7), (0x000000000007AD13, .sSub 13 10 7),
      (0x000000000007AD14, .sMul 13 10 7), (0x000000000007AD15, .sAnd 13 10 7),
      (0x000000000007AD16, .sSll 13 10 7), (0x000000000007AD17, .sSrl 13 10 7),
      (0x800000080000AD18, .sLw 13 10 0x80000008), (0x800000080000AD19, .sSw 13 10 0x80000008),
      (0x800000080007A020, .beq 10 7 0x80000008), (0x800000080007A021, .bne 10 7 0x80000008),
      (0x800000080007A022, .blt 10 7 0x80000008), (0x800000080007A023, .bltu 10 7 0x80000008),
      (0x8000000800000024, .jmp 0x80000008), (0x8000000800000D25, .jal 13 0x80000008),
      (0x000000000000A026, .jr 10)] : List (Nat × Instr)).all decodesTo = true := by decide +kernel

/-- R150: a word of every row, its fields written into the row's encoding. -/
theorem test_decode_torus_poly :
    ([
      (0x000000000007AD28, .mswF 13 10 7), (0x000000000007AD29, .mswT 13 10 7),
      (0x000000000007AD2A, .aphase 13 10 7), (0x000000000000AD2B, .gauss 13 10),
      (0x0000000000000C30, .pClr 12), (0x00000000000E9C31, .pAdd 12 9 14),
      (0x00000000000E9C32, .pSub 12 9 14), (0x0000000000079C33, .pAddmulz 12 9 7),
      (0x0000000000079C34, .pMulxai 12 9 7), (0x0000000000079C35, .pMulxaim1 12 9 7),
      (0x00000000000E9C36, .pMulfft 12 9 14), (0x800000080000AC38, .pLd 12 10 0x80000008),
      (0x800000080000AC39, .pSt 12 10 0x80000008)] : List (Nat × Instr)).all decodesTo = true := by decide +kernel

/-- R150: a word of every row, its fields written into the row's encoding. -/
theorem test_decode_fft_lwe :
    ([
      (0x0000000000000540, .fClr 5), (0x0000000000009541, .fFwdi 5 9),
      (0x0000000000009542, .fFwdt 5 9), (0x0000000000006C43, .fInv 12 6),
      (0x0000000000036544, .fMuladd 5 6 3), (0x000000000000A545, .fMono 5 10),
      (0x000000000000A550, .lEnc 5 10), (0x0000000000076D51, .lDec 13 6 7),
      (0x0000000000006D52, .lPhase 13 6), (0x000000000000A553, .lTriv 5 10),
      (0x000000000100A550, .lEncX 5 10), (0x0000000001076D51, .lDecX 13 6 7),
      (0x0000000001006D52, .lPhaseX 13 6), (0x000000000100A553, .lTrivX 5 10),
      (0x0000000000006554, .lAdd 5 6), (0x0000000000006555, .lSub 5 6),
      (0x0000000000076556, .lAddmul 5 6 7), (0x0000000000076557, .lSubmul 5 6 7),
      (0x0000000000006558, .lNeg 5 6), (0x0000000000006559, .lCopy 5 6),
      (0x800000080000A55A, .lLd 5 10 0x80000008), (0x800000080100A55A, .lLdX 5 10 0x80000008),
      (0x800000080000A55B, .lSt 5 10 0x80000008), (0x800000080000A05C, .keyLdl 10 0x80000008)] : List (Nat × Instr)).all decodesTo = true := by decide +kernel

/-- R150: a word of every row, its fields written into the row's encoding. -/
theorem test_decode_rlwe_rgsw_boot :
    ([
      (0x0000000000000260, .rEnc0 2), (0x0000000000009261, .rEnc 2 9),
      (0x0000000000003C62, .rPhase 12 3), (0x0000000000009263, .rTriv 2 9),
      (0x0000000000003264, .rAdd 2 3), (0x0000000000003265, .rSub 2 3),
      (0x0000000000019266, .rAddmulr 2 9 1), (0x0000000000073267, .rMulxaim1 2 3 7),
      (0x0000000000073568, .rExtract 5 3 7), (0x800000080000A269, .rLd 2 10 0x80000008),
      (0x800000080000A26A, .rSt 2 10 0x80000008), (0x800000080000A06B, .keyLdr 10 0x80000008),
      (0x0000000000009C70, .gDecomp 12 9), (0x000000000007A071, .gEnc 10 7),
      (0x800000080000AD72, .gLd 13 10 0x80000008), (0x0000000000073273, .gExtprod 2 3 7),
      (0x0000000000006578, .ks 5 6), (0x000000000007627C, .brRot 2 6 7),
      (0x000000000007657D, .bootNks 5 6 7), (0x000000000007657E, .boot 5 6 7)] : List (Nat × Instr)).all decodesTo = true := by decide +kernel

/-- 95 §2.1: reserved bits, gaps of the map and unlisted opcodes. -/
theorem test_decode_illegal :
    ([0x0000000000000000, 0x0000000100000001, 0x0000000000000801, 0x0000000002000001, 0x0000000000551334,
      0x0000000001001054, 0x0000000000000854, 0x0000000000101054, 0x0000000000000464, 0x0000100000000003,
      0x0000000000000027, 0x000000000000007F] : List InstrWord).all isIllegal = true := by decide +kernel

/-- 95 §2.1: words that decode. -/
theorem test_decode_vectors :
    ([(0x0000000000000001, .nop), (0x0000000000051334, .pMulxai 3 1 5), (0xFFFFFFF800001111, .sAddi 1 1 0xFFFFFFF8),
      (0x0000000000001053, .lTriv 0 1), (0x0000000001001053, .lTrivX 0 1),
      (0x0000010000000003, .csrr 0 0x100)] : List (Nat × Instr)).all decodesTo = true := by decide +kernel

/-- R145: no two rows of the opcode map overlap. -/
theorem test_rows_disjoint : opcodeTable.Pairwise (fun r q =>
    r.pattern &&& (r.mask &&& q.mask) ≠ q.pattern &&& (r.mask &&& q.mask)) := by decide +kernel

/-- R150: the map has 78 rows, and every mnemonic once. -/
theorem test_rows_count : opcodeTable.length = 78 ∧ (opcodeTable.map OpRow.mnemonic).Nodup := by decide +kernel

/-- Fewer than eight bytes are no instruction. -/
theorem test_decode_short : decodeBytes [1, 0, 0, 0, 0, 0, 0] = .error .tooShort := by decide +kernel

/-! ### Well-formedness (R50, R143): a CSR number is below 4096; nothing else can be ill-formed -/

theorem test_wf_csrr : Instr.wf (.csrr 1 4096) = false ∧ Instr.wf (.csrr 1 4095) = true := by decide
theorem test_wf_csrw : Instr.wf (.csrw 1 4096) = false ∧ Instr.wf (.csrw 1 4095) = true := by decide

/-! ### The assembler (R170, R171, R151) -/

/-- R151: the worked spelling, and a negative decimal immediate (R143). -/
theorem test_assemble : assemble 0 (["P.MULXAI p3, p1, s5", "S.ADDI s1, s1, -8", "HALT"].map String.toList)
    = some [0x0000000000051334, 0xFFFFFFF800001111, 0x0000000000000002] := by decide +kernel

/-- 95 P1: a label as a branch target is the distance to it. -/
theorem test_assemble_label : assemble 0x18 (["loop: S.LW s4, 0(s1)", "S.ADD s3, s3, s4", "S.ADDI s1, s1, 4",
    "S.ADDI s2, s2, -1", "BNE s2, s0, loop"].map String.toList) = some [0x0000000000001418, 0x0000000000043312, 0x0000000400001111,
    0xFFFFFFFF00002211, 0xFFFFFFE000002021] := by decide +kernel

/-! ### States for one-step tests -/

/-- The parameters of the tests: N = 4, k = 1, n = 2, l = 2, Bgbit = 4, t = 2, base_bit = 2. -/
def cfg : Csrs where
  n := 4
  k := 1
  lweN := 2
  bkL := 2
  bkBgbit := 4
  ksT := 2
  ksBasebit := 2
  alphaLo := 0
  alphaHi := 0x3F000000
  kskBase := 0x4000

/-- A running CORE at pc 0x20 with those parameters. -/
def base : State := { State.reset with runState := .running, csr := cfg, pc := 0x20 }

/-- The instruction answers a next state with the property. -/
def after (i : Instr) (s : State) (f : State → Bool) : Bool :=
  match exec i s with
  | .next t => f t
  | _ => false

/-- The instruction takes the fault (R523). -/
def faults (i : Instr) (s : State) (c : Cause) (info : Word) : Bool :=
  after i s fun t => t.runState == .faulted && t.cause == c && t.faultInfo == info && t.faultPc == s.pc
    && t.pc == s.pc && t.irqPending

/-- The instruction completes with the value in an S register, at pc + 8. -/
def yieldsS (i : Instr) (s : State) (d : SIdx) (v : Word) : Bool :=
  after i s fun t => t.getS d == some v && t.pc == s.pc + 8 && t.runState == .running

/-- The instruction completes with the coefficients in a P register, at pc + 8. -/
def yieldsP (i : Instr) (s : State) (d : PIdx) (c : List Word) : Bool :=
  after i s fun t => t.pRegs[d] == some ⟨s.ringN, c⟩ && t.pc == s.pc + 8

/-- The instruction completes with the sample in an L register, at pc + 8. -/
def yieldsL (i : Instr) (s : State) (d : LIdx) (x : LReg) : Bool :=
  after i s fun t => t.lRegs[d] == some x && t.pc == s.pc + 8

/-- The instruction completes with the components in an R register, at pc + 8. -/
def yieldsR (i : Instr) (s : State) (d : RIdx) (comp : List (List Word)) : Bool :=
  after i s fun t => (t.rRegs[d].map fun x => x.val.comp) == some comp && t.pc == s.pc + 8

/-- The noiseless sample of a word (R363). -/
def triv (d : Nat) (w : Word) : LReg := ⟨d, List.replicate d 0, w, 0⟩

/-- The noiseless RLWE sample of a polynomial, k = 1 (R403). -/
def trivR (n : Nat) (c : List Word) : RReg := ⟨n, 1, ⟨[List.replicate n 0, c], 0⟩⟩

/-! ### Sequencer, scalar and control (95 §2.2) -/

/-- R210. -/
theorem test_nop :
    (after .nop base fun t => t.pc == 0x28 && t.runState == .running) = true := by decide +kernel

/-- R211: STATUS = 0x102, pc stays. -/
theorem test_halt :
    (after .halt base fun t => t.runState == .halted && t.pc == 0x20 && t.status == 0x102) = true := by decide +kernel

/-- R212, R53: ID, DEC_OFFSET and CFG_VALID at N = 3; CSR 0x100 is not listed. -/
theorem test_csrr :
    (yieldsS (.csrr 1 0x0F0) base 1 0x54464845 &&
     yieldsS (.csrr 1 0x013) { base with csr := Csrs.reset } 1 0x81020000 &&
     yieldsS (.csrr 1 0x017) { base with csr := { Csrs.reset with n := 3 } } 1 0x3E &&
     yieldsS (.csrr 1 0x016) { base with csr := { Csrs.reset with n := 3 } } 1 0 &&
     faults (.csrr 1 0x100) base .illegalCsr 0x100) = true := by decide +kernel

/-- R213: a bad N is stored without a fault; BG is read-only; the source is checked after the number. -/
theorem test_csrw :
    (after (.csrw 1 0x000) (base.sets [(1, 3)]) (fun t => t.csr.n == 3 && t.pc == 0x28) &&
     faults (.csrw 1 0x010) base .illegalCsr 0x010 &&
     faults (.csrw 1 0x000) base .uninit 1) = true := by decide +kernel

/-- R214, R202. -/
theorem test_s_li :
    (yieldsS (.sLi 2 0xE0000000) base 2 0xE0000000 &&
     yieldsS (.sLi 0 5) base 0 0) = true := by decide +kernel

/-- R215. -/
theorem test_s_addi :
    (yieldsS (.sAddi 1 1 0xFFFFFFF8) (base.sets [(1, 5)]) 1 0xFFFFFFFD) = true := by decide +kernel

/-- R216: wrap, no flag; R530: S2 is reported before S3. -/
theorem test_s_add :
    (yieldsS (.sAdd 3 1 2) (base.sets [(1, 0x80000000), (2, 0x80000000)]) 3 0 &&
     faults (.sAdd 1 2 3) base .uninit 2) = true := by decide +kernel

/-- R217. -/
theorem test_s_sub :
    (yieldsS (.sSub 3 0 2) (base.sets [(2, 0x20000000)]) 3 0xE0000000) = true := by decide +kernel

/-- R218. -/
theorem test_s_mul :
    (yieldsS (.sMul 3 1 2) (base.sets [(1, 0xFFFFFFFF), (2, 0xFFFFFFFF)]) 3 1 &&
     yieldsS (.sMul 3 1 2) (base.sets [(1, 0x00010000), (2, 0x00010000)]) 3 0) = true := by decide +kernel

/-- R219. -/
theorem test_s_and :
    (yieldsS (.sAnd 3 1 2) (base.sets [(1, 0xE0000000), (2, 0x80000000)]) 3 0x80000000) = true := by decide +kernel

/-- R220. -/
theorem test_s_sll :
    (yieldsS (.sSll 3 1 2) (base.sets [(1, 1), (2, 31)]) 3 0x80000000 &&
     yieldsS (.sSll 3 1 2) (base.sets [(1, 1), (2, 32)]) 3 0 &&
     yieldsS (.sSll 3 1 2) (base.sets [(1, 1), (2, 0xFFFFFFFF)]) 3 0) = true := by decide +kernel

/-- R221. -/
theorem test_s_srl :
    (yieldsS (.sSrl 3 1 2) (base.sets [(1, 0xE0000000), (2, 31)]) 3 1 &&
     yieldsS (.sSrl 3 1 2) (base.sets [(1, 0xE0000000), (2, 0)]) 3 0xE0000000) = true := by decide +kernel

/-- R222, R105, R106. -/
theorem test_s_lw :
    (yieldsS (.sLw 2 1 0) ((base.sets [(1, 0x100)]).words 0x100 [0x12345678]) 2 0x12345678 &&
     faults (.sLw 2 1 2) (base.sets [(1, 0x100)]) .dmemMisaligned 0x102 &&
     faults (.sLw 2 1 0xFFFFFFFC) (base.sets [(1, 0)]) .dmemOob 0xFFFFFFFC &&
     faults (.sLw 1 2 2) base .uninit 2) = true := by decide +kernel

/-- R223, R103: little-endian bytes. -/
theorem test_s_sw :
    (after (.sSw 2 1 4) (base.sets [(1, 0x100), (2, 0x12345678)]) (fun t => (List.range 4).map (fun i => memByte t.dmem (0x104 + i)) == [some 0x78, some 0x56, some 0x34, some 0x12]) &&
     after (.sSw 0 1 0) (base.sets [(1, 0x100)]) (fun t => memWord t.dmem 0x100 == some 0)) = true := by decide +kernel

/-- R224, R231: the target is not checked here. -/
theorem test_beq :
    (after (.beq 0 0 16) base (fun t => t.pc == 0x30) &&
     after (.beq 0 0 4) { base with pc := 0 } (fun t => t.pc == 4)) = true := by decide +kernel

/-- R225. -/
theorem test_bne :
    (after (.bne 1 0 0xFFFFFFF0) { (base.sets [(1, 3)]) with pc := 0x28 } (fun t => t.pc == 0x18) &&
     after (.bne 1 0 0xFFFFFFF0) { (base.sets [(1, 0)]) with pc := 0x28 } (fun t => t.pc == 0x30)) = true := by decide +kernel

/-- R226: the torus sign test. -/
theorem test_blt :
    (after (.blt 0 1 0x40) (base.sets [(1, 0x20000000)]) (fun t => t.pc == 0x60) &&
     after (.blt 0 1 0x40) (base.sets [(1, 0)]) (fun t => t.pc == 0x28) &&
     after (.blt 0 1 0x40) (base.sets [(1, 0x80000000)]) (fun t => t.pc == 0x28)) = true := by decide +kernel

/-- R227. -/
theorem test_bltu :
    (after (.bltu 1 0 0x40) (base.sets [(1, 0xE0000000)]) (fun t => t.pc == 0x28) &&
     after (.bltu 2 1 0x40) (base.sets [(1, 0xE0000000), (2, 1)]) (fun t => t.pc == 0x60)) = true := by decide +kernel

/-- R228. -/
theorem test_jmp :
    (after (.jmp 0xFFFFFFF8) base (fun t => t.pc == 0x18)) = true := by decide +kernel

/-- R229. -/
theorem test_jal :
    (after (.jal 15 0x100) { base with pc := 8 } (fun t => t.pc == 0x108 && t.getS 15 == some 0x10) &&
     after (.jal 0 0x100) { base with pc := 8 } (fun t => t.pc == 0x108 && t.getS 0 == some 0)) = true := by decide +kernel

/-- R230, R200: a misaligned target faults at the next fetch. -/
theorem test_jr :
    (after (.jr 15) (base.sets [(15, 0x14)]) (fun t => t.pc == 0x14 && (match step t with | .next u => u.cause == .fetchMisaligned && u.faultPc == 0x14 && u.faultInfo == 0x14 | _ => false))) = true := by decide +kernel

/-! ### Torus scalar (95 §2.3) -/

/-- R265. -/
theorem test_msw_f :
    (yieldsS (.mswF 3 1 2) (base.sets [(1, 0x10000000), (2, 8)]) 3 1 &&
     yieldsS (.mswF 3 1 2) (base.sets [(1, 0x0FFFFFFF), (2, 8)]) 3 0 &&
     yieldsS (.mswF 3 1 2) (base.sets [(1, 0xF0000000), (2, 8)]) 3 0 &&
     yieldsS (.mswF 3 1 2) (base.sets [(1, 0xE0000000), (2, 2048)]) 3 1792 &&
     yieldsS (.mswF 3 1 2) (base.sets [(1, 0xFFFFFFFF), (2, 0xFFFFFFFF)]) 3 0xFFFFFFFE &&
     faults (.mswF 3 1 2) (base.sets [(1, 5), (2, 0)]) .badOperand 0) = true := by decide +kernel

/-- R266. -/
theorem test_msw_t :
    (yieldsS (.mswT 3 1 2) (base.sets [(1, 2), (2, 3)]) 3 0xAAAAAAAB &&
     yieldsS (.mswT 3 1 2) (base.sets [(1, 3), (2, 7)]) 3 0x6DB6DB6E &&
     yieldsS (.mswT 3 1 2) (base.sets [(1, 0xFFFFFFFE), (2, 0xFFFFFFFF)]) 3 0xFFFFFFFF &&
     faults (.mswT 3 1 2) (base.sets [(1, 8), (2, 8)]) .badOperand 8 &&
     faults (.mswT 3 1 2) (base.sets [(1, 0), (2, 0)]) .badOperand 0) = true := by decide +kernel

/-- R267. -/
theorem test_aphase :
    (yieldsS (.aphase 3 1 2) (base.sets [(1, 0x2003A1B4), (2, 8)]) 3 0x20000000 &&
     yieldsS (.aphase 3 1 2) (base.sets [(1, 0x0FFFFFFF), (2, 8)]) 3 0 &&
     yieldsS (.aphase 3 1 2) (base.sets [(1, 0x40000000), (2, 2)]) 3 0x80000000 &&
     yieldsS (.aphase 3 1 2) (base.sets [(1, 0xC0000000), (2, 2)]) 3 0) = true := by decide +kernel

/-- R264: the draw is added to the word (a draw of −5 gives 0x1FFFFFFB); GAUSS itself makes one draw. -/
theorem test_gauss :
    (0x20000000 + u32 (-5) == (0x1FFFFFFB : Word) &&
     after (.gauss 2 1) (base.sets [(1, 0x20000000)]) (fun t => t.pc == 0x28 && t.drawCtr == 1)) = true := by decide +kernel

/-! ### Polynomials, N = 4 (95 §2.4) -/

/-- R290. -/
theorem test_p_clr :
    (yieldsP (.pClr 2) base 2 [0, 0, 0, 0] &&
     faults (.pClr 2) { base with csr := { cfg with n := 3 } } .badParam 0) = true := by decide +kernel

/-- R291, R280: a stale degree, and the predicate before the operands. -/
theorem test_p_add :
    (yieldsP (.pAdd 3 1 2) (base.polys [(1, [1, 2, 3, 0xFFFFFFFF]), (2, [1, 1, 1, 1])]) 3 [2, 3, 4, 0] &&
     faults (.pAdd 3 1 2) { (base.polys [(1, [1, 2, 3, 4]), (2, [1, 1, 1, 1])]) with csr := { cfg with n := 8 } } .paramMismatch 0x10001 &&
     faults (.pAdd 1 2 3) { base with csr := { cfg with n := 3 } } .badParam 0) = true := by decide +kernel

/-- R292. -/
theorem test_p_sub :
    (yieldsP (.pSub 3 1 2) (base.polys [(1, [0, 0, 5, 7]), (2, [1, 0, 0, 7])]) 3 [0xFFFFFFFF, 0, 5, 0]) = true := by decide +kernel

/-- R293: also with d = a, and an invalid accumulator. -/
theorem test_p_addmulz :
    (yieldsP (.pAddmulz 3 1 2) ((base.sets [(2, 2)]).polys [(3, [1, 1, 1, 1]), (1, [0, 1, 2, 3])]) 3 [1, 3, 5, 7] &&
     yieldsP (.pAddmulz 1 1 2) ((base.sets [(2, 2)]).polys [(1, [0, 1, 2, 3])]) 1 [0, 3, 6, 9] &&
     faults (.pAddmulz 3 1 2) ((base.sets [(2, 2)]).polys [(1, [0, 1, 2, 3])]) .uninit 0x10003) = true := by decide +kernel

/-- R294. -/
theorem test_p_mulxai :
    (yieldsP (.pMulxai 3 1 2) ((base.sets [(2, 0)]).polys [(1, [1, 2, 3, 4])]) 3 [1, 2, 3, 4] &&
     yieldsP (.pMulxai 3 1 2) ((base.sets [(2, 3)]).polys [(1, [1, 2, 3, 4])]) 3 [0xFFFFFFFE, 0xFFFFFFFD, 0xFFFFFFFC, 1] &&
     yieldsP (.pMulxai 3 1 2) ((base.sets [(2, 4)]).polys [(1, [1, 2, 3, 4])]) 3 [0xFFFFFFFF, 0xFFFFFFFE, 0xFFFFFFFD, 0xFFFFFFFC] &&
     yieldsP (.pMulxai 3 1 2) ((base.sets [(2, 7)]).polys [(1, [1, 2, 3, 4])]) 3 [2, 3, 4, 0xFFFFFFFF] &&
     faults (.pMulxai 3 1 2) ((base.sets [(2, 8)]).polys [(1, [1, 2, 3, 4])]) .badOperand 8) = true := by decide +kernel

/-- R295. -/
theorem test_p_mulxaim1 :
    (yieldsP (.pMulxaim1 3 1 2) ((base.sets [(2, 1)]).polys [(1, [1, 2, 3, 4])]) 3 [0xFFFFFFFB, 0xFFFFFFFF, 0xFFFFFFFF, 0xFFFFFFFF] &&
     yieldsP (.pMulxaim1 3 1 2) ((base.sets [(2, 5)]).polys [(1, [1, 2, 3, 4])]) 3 [3, 0xFFFFFFFD, 0xFFFFFFFB, 0xFFFFFFF9]) = true := by decide +kernel

/-- R17: the exact products behind P.MULFFT (R296). -/
theorem test_nprod :
    (nprod 4 [0, 1, 0, 0] [5, 6, 7, 8] == [-8, 5, 6, 7] &&
     nprod 4 [3, -4, 0, 1] [1, 2, 3, 4] == [17, -1, -3, 1]) = true := by decide +kernel

/-- R296: N error draws. -/
theorem test_p_mulfft :
    (after (.pMulfft 3 1 2) (base.polys [(1, [1, 1, 0, 0]), (2, [5, 6, 7, 8])]) (fun t => t.pc == 0x28 && t.drawCtr == 4 && t.pRegs[3].isSome)) = true := by decide +kernel

/-- R17. -/
theorem test_sbits :
    (([[0, 0], [1, 0], [-1, 0], [3, -4], [-64, 63], [64, -64], [2 ^ 19, 0], [-2 ^ 31, 0]] : List (List Int)).map sbits == [1, 2, 1, 3, 7, 8, 21, 32]) = true := by decide +kernel

/-- R297. -/
theorem test_p_ld :
    (yieldsP (.pLd 1 1 0) ((base.sets [(1, 0x200)]).words 0x200 [1, 2, 3, 4]) 1 [1, 2, 3, 4] &&
     faults (.pLd 1 1 0) (base.sets [(1, 0x0FFFFFF4)]) .dmemOob 0x0FFFFFF4) = true := by decide +kernel

/-- R298. -/
theorem test_p_st :
    (after (.pSt 1 1 0) ((base.sets [(1, 0x300)]).polys [(1, [1, 2, 3, 4])]) (fun t => (List.range 16).map (fun i => memByte t.dmem (0x300 + i)) == [1, 0, 0, 0, 2, 0, 0, 0, 3, 0, 0, 0, 4, 0, 0, 0].map some)) = true := by decide +kernel

/-! ### The FFT engine, N = 4 (95 §2.5) -/

/-- R330, R333: class Z comes back exactly. -/
theorem test_f_clr :
    (after (.fClr 0) base (fun t => t.fRegs[0] == some ⟨4, [0, 0, 0, 0], .z⟩)) = true := by decide +kernel

/-- R331. -/
theorem test_f_fwdi :
    (after (.fFwdi 1 1) (base.polys [(1, [3, 0xFFFFFFFC, 0, 1])]) (fun t => t.fRegs[1] == some ⟨4, [3, -4, 0, 1], .i 3⟩)) = true := by decide +kernel

/-- R332. -/
theorem test_f_fwdt :
    (after (.fFwdt 1 1) (base.polys [(1, [0x20000000, 0, 0, 0xFFFFFFFF])]) (fun t => t.fRegs[1] == some ⟨4, [0x20000000, 0, 0, -1], .t⟩)) = true := by decide +kernel

/-- R333: N error draws; F3 was never written. -/
theorem test_f_inv :
    (after (.fInv 1 2) ({ base with fRegs := ((base.fRegs.set 0 (some ⟨4, [0, 0, 0, 0], .z⟩)).set 1 (some ⟨4, [1, 0, 0, 0], .i 2⟩)).set 2 (some ⟨4, [5, 6, 7, 8], .t⟩) }) (fun t => t.drawCtr == 4 && t.pRegs[1].isSome && t.pc == 0x28) &&
     faults (.fInv 1 3) base .uninit 0x20003) = true := by decide +kernel

/-- R334: a first and a second product, and two T operands. -/
theorem test_f_muladd :
    (after (.fMuladd 0 1 2) ({ base with fRegs := ((base.fRegs.set 0 (some ⟨4, [0, 0, 0, 0], .z⟩)).set 1 (some ⟨4, [1, 0, 0, 0], .i 2⟩)).set 2 (some ⟨4, [5, 6, 7, 8], .t⟩) }) (fun t => t.fRegs[0] == some ⟨4, [5, 6, 7, 8], .m 2 1⟩) &&
     after (.fMuladd 0 1 2) ({ base with fRegs := ((base.fRegs.set 0 (some ⟨4, [5, 6, 7, 8], .m 2 1⟩)).set 1 (some ⟨4, [1, 0, 0, 0], .i 2⟩)).set 2 (some ⟨4, [5, 6, 7, 8], .t⟩) }) (fun t => t.fRegs[0] == some ⟨4, [10, 12, 14, 16], .m 2 2⟩) &&
     after (.fMuladd 0 2 2) ({ base with fRegs := ((base.fRegs.set 0 (some ⟨4, [0, 0, 0, 0], .z⟩)).set 1 (some ⟨4, [1, 0, 0, 0], .i 2⟩)).set 2 (some ⟨4, [5, 6, 7, 8], .t⟩) }) (fun t => t.fRegs[0].map (fun x => x.cls) == some .g)) = true := by decide +kernel

/-- R335. -/
theorem test_f_mono :
    (after (.fMono 1 1) (base.sets [(1, 6)]) (fun t => t.fRegs[1] == some ⟨4, [0, 0, -1, 0], .i 2⟩) &&
     faults (.fMono 1 1) (base.sets [(1, 8)]) .badOperand 8) = true := by decide +kernel

/-! ### LWE, n = 2 and KEYL = [1, 0] (95 §2.6) -/

/-- R360: a sample with the spec's draws, and the instruction with its own (n + 1 of them). -/
theorem test_l_enc :
    (lweEncrypt 2 [true, false] [0x11111111, 0x22222222] 0x20000000 3 0x3F00000000000000 == ⟨2, [0x11111111, 0x22222222], 0x31111114, 0x3E10000000000000⟩ &&
     after (.lEnc 1 1) ({ (base.sets [(1, 0x20000000)]) with keyL := some ⟨2, [true, false]⟩, keyR := some ⟨4, 1, [[true, false, true, true]]⟩ }) (fun t => t.drawCtr == 3 && t.lRegs[1].map (fun x => (x.dim, x.a.length, x.var)) == some (2, 2, 0x3E10000000000000))) = true := by decide +kernel

/-- R360, R350: dimension k·N; with no KEYR the key faults. -/
theorem test_l_enc_x :
    (after (.lEncX 1 1) ({ (base.sets [(1, 0x20000000)]) with keyL := some ⟨2, [true, false]⟩, keyR := some ⟨4, 1, [[true, false, true, true]]⟩ }) (fun t => t.drawCtr == 5 && t.lRegs[1].map (fun x => x.dim) == some 4) &&
     faults (.lEncX 1 1) (base.sets [(1, 1)]) .uninit 0x70000) = true := by decide +kernel

/-- R361, R350: M = 0, no key, a stale dimension. -/
theorem test_l_dec :
    (yieldsS (.lDec 2 1 3) ({ ((base.sets [(3, 8)]).lwes [(1, ⟨2, [0x11111111, 0x22222222], 0x31111114, 0x3E10000000000000⟩)]) with keyL := some ⟨2, [true, false]⟩, keyR := some ⟨4, 1, [[true, false, true, true]]⟩ }) 2 0x20000000 &&
     faults (.lDec 2 1 3) ({ ((base.sets [(3, 0)]).lwes [(1, ⟨2, [0x11111111, 0x22222222], 0x31111114, 0x3E10000000000000⟩)]) with keyL := some ⟨2, [true, false]⟩, keyR := some ⟨4, 1, [[true, false, true, true]]⟩ }) .badOperand 0 &&
     faults (.lDec 2 1 3) ((base.sets [(3, 0)]).lwes [(1, ⟨2, [0x11111111, 0x22222222], 0x31111114, 0x3E10000000000000⟩)]) .uninit 0x60000 &&
     faults (.lDec 2 1 3) { ({ ((base.sets [(3, 8)]).lwes [(1, ⟨2, [0x11111111, 0x22222222], 0x31111114, 0x3E10000000000000⟩)]) with keyL := some ⟨2, [true, false]⟩, keyR := some ⟨4, 1, [[true, false, true, true]]⟩ }) with csr := { cfg with lweN := 3 } } .paramMismatch 0x30001) = true := by decide +kernel

/-- R361 with the extracted key [1, 0, 1, 1] (R393): 9 − (1 + 3 + 4) = 1. -/
theorem test_l_dec_x :
    (yieldsS (.lDecX 2 1 3) ({ ((base.sets [(3, 8)]).lwes [(1, ⟨4, [1, 2, 3, 4], 9, 0⟩)]) with keyL := some ⟨2, [true, false]⟩, keyR := some ⟨4, 1, [[true, false, true, true]]⟩ }) 2 0) = true := by decide +kernel

/-- R362. -/
theorem test_l_phase :
    (yieldsS (.lPhase 2 1) ({ (base.lwes [(1, ⟨2, [0x11111111, 0x22222222], 0x31111114, 0x3E10000000000000⟩)]) with keyL := some ⟨2, [true, false]⟩, keyR := some ⟨4, 1, [[true, false, true, true]]⟩ }) 2 0x20000003) = true := by decide +kernel

/-- R362, R393. -/
theorem test_l_phase_x :
    (yieldsS (.lPhaseX 2 1) ({ (base.lwes [(1, ⟨4, [1, 2, 3, 4], 9, 0⟩)]) with keyL := some ⟨2, [true, false]⟩, keyR := some ⟨4, 1, [[true, false, true, true]]⟩ }) 2 1) = true := by decide +kernel

/-- R363. -/
theorem test_l_triv :
    (yieldsL (.lTriv 0 1) (base.sets [(1, 0x20000000)]) 0 (triv 2 0x20000000)) = true := by decide +kernel

/-- R363. -/
theorem test_l_triv_x :
    (yieldsL (.lTrivX 0 1) (base.sets [(1, 0x20000000)]) 0 (triv 4 0x20000000)) = true := by decide +kernel

/-- R364, R351: also with d = a, and L1 before L0 when neither is valid. -/
theorem test_l_add :
    (yieldsL (.lAdd 1 1) ({ (base.lwes [(1, ⟨2, [0x11111111, 0x22222222], 0x31111114, 0x3E10000000000000⟩)]) with keyL := some ⟨2, [true, false]⟩, keyR := some ⟨4, 1, [[true, false, true, true]]⟩ }) 1 ⟨2, [0x22222222, 0x44444444], 0x62222228, 0x3E20000000000000⟩ &&
     faults (.lAdd 0 1) ({ (base.lwes [(0, triv 2 0), (1, triv 3 0)]) with keyL := some ⟨2, [true, false]⟩, keyR := some ⟨4, 1, [[true, false, true, true]]⟩ }) .paramMismatch 0x30000 &&
     faults (.lAdd 0 1) base .uninit 0x30001) = true := by decide +kernel

/-- R365: the variances add. -/
theorem test_l_sub :
    (yieldsL (.lSub 0 1) ({ (base.lwes [(0, triv 2 0x20000000), (1, triv 2 0xE0000000)]) with keyL := some ⟨2, [true, false]⟩, keyR := some ⟨4, 1, [[true, false, true, true]]⟩ }) 0 (triv 2 0x40000000) &&
     yieldsL (.lSub 1 1) ({ (base.lwes [(1, ⟨2, [0x11111111, 0x22222222], 0x31111114, 0x3E10000000000000⟩)]) with keyL := some ⟨2, [true, false]⟩, keyR := some ⟨4, 1, [[true, false, true, true]]⟩ }) 1 ⟨2, [0, 0], 0, 0x3E20000000000000⟩) = true := by decide +kernel

/-- R366, R353: the multiplier is signed in the variance. -/
theorem test_l_addmul :
    (yieldsL (.lAddmul 0 1 3) ({ ((base.sets [(3, 2)]).lwes [(0, triv 2 0x40000000), (1, triv 2 0x20000000)]) with keyL := some ⟨2, [true, false]⟩, keyR := some ⟨4, 1, [[true, false, true, true]]⟩ }) 0 (triv 2 0x80000000) &&
     yieldsL (.lAddmul 0 1 3) ({ ((base.sets [(3, 0xFFFFFFFF)]).lwes [(0, triv 2 0), (1, ⟨2, [0x11111111, 0x22222222], 0x31111114, 0x3E10000000000000⟩)]) with keyL := some ⟨2, [true, false]⟩, keyR := some ⟨4, 1, [[true, false, true, true]]⟩ }) 0 ⟨2, [0xEEEEEEEF, 0xDDDDDDDE], 0xCEEEEEEC, 0x3E10000000000000⟩) = true := by decide +kernel

/-- R367. -/
theorem test_l_submul :
    (yieldsL (.lSubmul 0 1 3) ({ ((base.sets [(3, 2)]).lwes [(0, triv 2 0xC0000000), (1, triv 2 0x20000000)]) with keyL := some ⟨2, [true, false]⟩, keyR := some ⟨4, 1, [[true, false, true, true]]⟩ }) 0 (triv 2 0x80000000)) = true := by decide +kernel

/-- R368. -/
theorem test_l_neg :
    (yieldsL (.lNeg 1 1) ({ (base.lwes [(1, ⟨2, [0x11111111, 0x22222222], 0x31111114, 0x3E10000000000000⟩)]) with keyL := some ⟨2, [true, false]⟩, keyR := some ⟨4, 1, [[true, false, true, true]]⟩ }) 1 ⟨2, [0xEEEEEEEF, 0xDDDDDDDE], 0xCEEEEEEC, 0x3E10000000000000⟩) = true := by decide +kernel

/-- R369: dim and var too. -/
theorem test_l_copy :
    (yieldsL (.lCopy 3 1) ({ (base.lwes [(1, ⟨2, [0x11111111, 0x22222222], 0x31111114, 0x3E10000000000000⟩)]) with keyL := some ⟨2, [true, false]⟩, keyR := some ⟨4, 1, [[true, false, true, true]]⟩ }) 3 ⟨2, [0x11111111, 0x22222222], 0x31111114, 0x3E10000000000000⟩) = true := by decide +kernel

/-- R370. -/
theorem test_l_ld :
    (yieldsL (.lLd 1 1 0) ((base.sets [(1, 0x400)]).words 0x400 [5, 6, 7, 0, 0x3FF00000]) 1 ⟨2, [5, 6], 7, 0x3FF0000000000000⟩ &&
     faults (.lLd 1 1 2) (base.sets [(1, 0x400)]) .dmemMisaligned 0x402) = true := by decide +kernel

/-- R370: 95 P5's sample at N = 4. -/
theorem test_l_ld_x :
    (yieldsL (.lLdX 1 1 0) ((base.sets [(1, 0x400)]).words 0x400 [1, 2, 3, 4, 5, 0, 0]) 1 ⟨4, [1, 2, 3, 4], 5, 0⟩) = true := by decide +kernel

/-- R371. -/
theorem test_l_st :
    (after (.lSt 1 1 0) ({ ((base.sets [(1, 0x500)]).lwes [(1, ⟨2, [5, 6], 7, 0x3FF0000000000000⟩)]) with keyL := some ⟨2, [true, false]⟩, keyR := some ⟨4, 1, [[true, false, true, true]]⟩ }) (fun t => (List.range 5).map (fun i => memWord t.dmem (0x500 + 4 * i)) == [some 5, some 6, some 7, some 0, some 0x3FF00000])) = true := by decide +kernel

/-- R372: the keys' data check is the last. -/
theorem test_key_ldl :
    (after (.keyLdl 1 0) { (base.sets [(1, 0x800)]).words 0x800 [1, 0, 1] with csr := { cfg with lweN := 3 } } (fun t => t.keyL == some ⟨3, [true, false, true]⟩ && csrKeyStat t == 1) &&
     faults (.keyLdl 1 0) { (base.sets [(1, 0x800)]).words 0x800 [1, 2, 1] with csr := { cfg with lweN := 3 } } .badOperand 2) = true := by decide +kernel

/-! ### RLWE (95 §2.7), mostly at N = 2 -/

/-- R400: a sample with the spec's draws. -/
theorem test_r_enc0 :
    ((rlweEncrypt 2 1 [[true, true]] [[3, 5]] [0, 1] [] 0).comp == [[3, 5], [0xFFFFFFFE, 9]] &&
     after (.rEnc0 0) ({ base with csr := { cfg with n := 2 }, keyR := some ⟨2, 1, [[true, true]]⟩, rRegs := base.rRegs, pRegs := base.pRegs }) (fun t => t.drawCtr == 4 && t.rRegs[0].isSome)) = true := by decide +kernel

/-- R401. -/
theorem test_r_enc :
    ((rlweEncrypt 2 1 [[true, true]] [[3, 5]] [0, 1] [0x20000000, 0] 0).comp == [[3, 5], [0x1FFFFFFE, 9]] &&
     after (.rEnc 0 1) ({ base with csr := { cfg with n := 2 }, keyR := some ⟨2, 1, [[true, true]]⟩, rRegs := base.rRegs, pRegs := (base.pRegs.set 1 (some ⟨2, [0x20000000, 0]⟩)) }) (fun t => t.drawCtr == 4 && t.rRegs[0].isSome)) = true := by decide +kernel

/-- R402. -/
theorem test_r_phase :
    (yieldsP (.rPhase 2 0) ({ base with csr := { cfg with n := 2 }, keyR := some ⟨2, 1, [[true, true]]⟩, rRegs := (base.rRegs.set 0 (some ⟨2, 1, ⟨[[3, 5], [0x1FFFFFFE, 9]], 0⟩⟩)), pRegs := base.pRegs }) 2 [0x20000000, 1]) = true := by decide +kernel

/-- R403. -/
theorem test_r_triv :
    (yieldsR (.rTriv 1 1) ({ base with csr := { cfg with n := 2 }, keyR := some ⟨2, 1, [[true, true]]⟩, rRegs := base.rRegs, pRegs := (base.pRegs.set 1 (some ⟨2, [1, 2]⟩)) }) 1 [[0, 0], [1, 2]]) = true := by decide +kernel

/-- R404. -/
theorem test_r_add :
    (yieldsR (.rAdd 1 2) ({ base with csr := { cfg with n := 2 }, keyR := some ⟨2, 1, [[true, true]]⟩, rRegs := ((base.rRegs.set 1 (some (trivR 2 [1, 2]))).set 2 (some (trivR 2 [3, 4]))), pRegs := base.pRegs }) 1 [[0, 0], [4, 6]]) = true := by decide +kernel

/-- R405. -/
theorem test_r_sub :
    (yieldsR (.rSub 1 2) ({ base with csr := { cfg with n := 2 }, keyR := some ⟨2, 1, [[true, true]]⟩, rRegs := ((base.rRegs.set 1 (some (trivR 2 [1, 2]))).set 2 (some (trivR 2 [3, 4]))), pRegs := base.pRegs }) 1 [[0, 0], [0xFFFFFFFE, 0xFFFFFFFE]]) = true := by decide +kernel

/-- R406: (k+1)·N error draws; 0 + 1²·0.5 is the variance. -/
theorem test_r_addmulr :
    (after (.rAddmulr 1 1 2) ({ base with csr := { cfg with n := 2 }, keyR := some ⟨2, 1, [[true, true]]⟩, rRegs := ((base.rRegs.set 1 (some (trivR 2 [0, 0]))).set 2 (some ⟨2, 1, ⟨[[0, 0], [5, 6]], 0x3FE0000000000000⟩⟩)), pRegs := (base.pRegs.set 1 (some ⟨2, [1, 0]⟩)) }) (fun t => t.drawCtr == 4 && t.rRegs[1].map (fun x => x.val.var) == some 0x3FE0000000000000)) = true := by decide +kernel

/-- R407. -/
theorem test_r_mulxaim1 :
    (yieldsR (.rMulxaim1 1 1 1) ({ (base.sets [(1, 1)]) with csr := { cfg with n := 2 }, keyR := some ⟨2, 1, [[true, true]]⟩, rRegs := (base.rRegs.set 1 (some (trivR 2 [1, 2]))), pRegs := base.pRegs }) 1 [[0, 0], [0xFFFFFFFD, 0xFFFFFFFF]] &&
     faults (.rMulxaim1 1 1 1) ({ (base.sets [(1, 4)]) with csr := { cfg with n := 2 }, keyR := some ⟨2, 1, [[true, true]]⟩, rRegs := (base.rRegs.set 1 (some (trivR 2 [1, 2]))), pRegs := base.pRegs }) .badOperand 4) = true := by decide +kernel

/-- R408, 90_conflicts.md C1. -/
theorem test_r_extract :
    (yieldsL (.rExtract 0 0 1) ({ (base.sets [(1, 0)]) with csr := { cfg with n := 2 }, keyR := some ⟨2, 1, [[true, true]]⟩, rRegs := (base.rRegs.set 0 (some ⟨2, 1, ⟨[[3, 5], [7, 9]], 0⟩⟩)), pRegs := base.pRegs }) 0 ⟨2, [3, 0xFFFFFFFB], 7, 0⟩ &&
     yieldsL (.rExtract 0 0 1) ({ (base.sets [(1, 1)]) with csr := { cfg with n := 2 }, keyR := some ⟨2, 1, [[true, true]]⟩, rRegs := (base.rRegs.set 0 (some ⟨2, 1, ⟨[[3, 5], [7, 9]], 0⟩⟩)), pRegs := base.pRegs }) 0 ⟨2, [5, 3], 9, 0⟩ &&
     faults (.rExtract 0 0 1) ({ (base.sets [(1, 2)]) with csr := { cfg with n := 2 }, keyR := some ⟨2, 1, [[true, true]]⟩, rRegs := (base.rRegs.set 0 (some ⟨2, 1, ⟨[[3, 5], [7, 9]], 0⟩⟩)), pRegs := base.pRegs }) .badOperand 2) = true := by decide +kernel

/-- 95 §2.7: every index at N = 4 gives the RLWE phase coefficient. -/
theorem test_extract_phases :
    ((List.range 4).map (fun i => lwePhaseOf (rlweExtract 4 1 i ⟨[[1, 2, 3, 4], [10, 20, 30, 40]], 0⟩) [true, false, true, true]) == [0x0E, 0x19, 0x1E, 0x21]) = true := by decide +kernel

/-- R409. -/
theorem test_r_ld :
    (yieldsR (.rLd 0 1 0) ({ (base.sets [(1, 0x600)]).words 0x600 [3, 5, 7, 9, 0, 0] with csr := { cfg with n := 2 } }) 0 [[3, 5], [7, 9]]) = true := by decide +kernel

/-- R410, R113: the components in order, then the variance. -/
theorem test_r_st :
    (after (.rSt 0 1 0) ({ (base.sets [(1, 0x600)]) with csr := { cfg with n := 2 }, keyR := some ⟨2, 1, [[true, true]]⟩, rRegs := (base.rRegs.set 0 (some ⟨2, 1, ⟨[[3, 5], [7, 9]], 0x3FF0000000000000⟩⟩)), pRegs := base.pRegs }) (fun t => (List.range 6).map (fun i => memWord t.dmem (0x600 + 4 * i)) == [some 3, some 5, some 7, some 9, some 0, some 0x3FF00000])) = true := by decide +kernel

/-- R411. -/
theorem test_key_ldr :
    (after (.keyLdr 1 0) ({ (base.sets [(1, 0x800)]).words 0x800 [1, 1] with csr := { cfg with n := 2 } }) (fun t => t.keyR == some ⟨2, 1, [[true, true]]⟩ && csrKeyStat t == 2)) = true := by decide +kernel

/-! ### RGSW (95 §2.8) -/

/-- R433, both parameter sets. -/
theorem test_digits :
    (([0x20000000, 0x80000000, 0x7FF, 0xFFFFFFFF, 0x7FFFFFFF, 0x12345678] : List Word).map (fun x => vec 3 fun j => decDigit 3 7 j x) == [[16, 0, 0], [-64, 0, 0], [0, 0, 0], [0, 0, -1], [-64, 0, -1], [9, 13, 10]] &&
     ([0x80000000, 0x7FFFFFFF, 0x12345678] : List Word).map (fun x => vec 2 fun j => decDigit 2 10 j x) == [[-512, 0], [-512, -1], [73, -187]]) = true := by decide +kernel

/-- R440: three writes; a run past P15; an illegal gadget names BK_L. -/
theorem test_g_decomp :
    (after (.gDecomp 8 6) ({ (base.polys [(6, [0x20000000, 0x7FF, 0, 0xFFFFFFFF])]) with csr := { Csrs.reset with n := 4 } }) (fun t => t.pRegs[8] == some ⟨4, [16, 0, 0, 0]⟩ && t.pRegs[9] == some ⟨4, [0, 0, 0, 0]⟩ && t.pRegs[10] == some ⟨4, [0, 0, 0, 0xFFFFFFFF]⟩ && t.pRegs[11] == none) &&
     faults (.gDecomp 14 1) ({ (base.polys [(1, [1, 2, 3, 4])]) with csr := { Csrs.reset with n := 4 } }) .badOperand 3 &&
     faults (.gDecomp 1 2) { base with csr := { cfg with bkL := 4, bkBgbit := 9 } } .badParam 3) = true := by decide +kernel

/-- R441: the slot limit; m·H[j] goes to component i of row i·l + j. -/
theorem test_g_enc :
    (faults (.gEnc 1 2) ({ (base.sets [(1, 1024), (2, 1)]) with keyL := some ⟨2, [true, false]⟩, keyR := some ⟨4, 1, [[true, false, true, true]]⟩ }) .badOperand 1024 &&
     after (.gEnc 1 2) ({ (base.sets [(1, 5), (2, 1)]) with keyL := some ⟨2, [true, false]⟩, keyR := some ⟨4, 1, [[true, false, true, true]]⟩ }) (fun t => (t.getBk 5).map (fun g => (g.deg, g.k, g.l, g.bgbit, g.rows.length)) == some (4, 1, 2, 4, 4) && t.drawCtr == 32) &&
     (addGadget 2 1 0 7 ⟨[[1, 2], [3, 4]], 0⟩).comp == [[8, 2], [3, 4]]) = true := by decide +kernel

/-- R442: kpl rows of RSTRIDE bytes. -/
theorem test_g_ld :
    (after (.gLd 1 2 0) ((base.sets [(1, 5), (2, 0x1000)]).words 0x1000 (vec 40 fun i => BitVec.ofNat 32 i)) (fun t => (t.getBk 5).map (fun g => g.rows.getD 3 ⟨[], 0⟩) == some ⟨[[30, 31, 32, 33], [34, 35, 36, 37]], 0x0000002700000026⟩)) = true := by decide +kernel

/-- R443: an unwritten and a stale slot; (k+1)·N error draws. -/
theorem test_g_extprod :
    (faults (.gExtprod 0 1 1) { (base.sets [(1, 5)]) with rRegs := base.rRegs.set 1 (some (trivR 4 [1, 2, 3, 4])) } .uninit 0x50005 &&
     faults (.gExtprod 0 1 1) { (base.sets [(1, 5)]) with rRegs := base.rRegs.set 1 (some (trivR 4 [1, 2, 3, 4])), bk := [(5, ⟨4, 1, 2, 4, List.replicate 4 ⟨[[0, 0, 0, 0], [0, 0, 0, 0]], 0⟩⟩)], csr := { cfg with bkL := 3 } } .paramMismatch 0x50005 &&
     after (.gExtprod 0 1 1) { (base.sets [(1, 5)]) with rRegs := base.rRegs.set 1 (some (trivR 4 [1, 2, 3, 4])), bk := [(5, ⟨4, 1, 2, 4, List.replicate 4 ⟨[[0, 0, 0, 0], [0, 0, 0, 0]], 0⟩⟩)] } (fun t => t.drawCtr == 8 && t.rRegs[0].isSome)) = true := by decide +kernel

/-! ### Key switching and bootstrapping (95 §2.9, §2.10) -/

/-- R463, t = 8 and base_bit = 2. -/
theorem test_ks_digits :
    (([0x20000000, 0x7FFFFFFF, 0x12345678, 0xFFFF8000, 0xFFFF7FFF] : List Word).map (fun x => vec 8 fun j => ksDigit 8 2 j x) == [[0, 2, 0, 0, 0, 0, 0, 0], [2, 0, 0, 0, 0, 0, 0, 0], [0, 1, 0, 2, 0, 3, 1, 0], [0, 0, 0, 0, 0, 0, 0, 0], [3, 3, 3, 3, 3, 3, 3, 3]]) = true := by decide +kernel

/-- R465: 95 P5; a misaligned KSK_BASE; a wrong dimension. -/
theorem test_ks :
    (yieldsL (.ks 2 1) { ((base.lwes [(1, ⟨2, [0x60000000, 0x30000000], 0x10000000, 0⟩)]).words 0x1010 [5, 0x80000007, 0, 0]).words 0x1070 [0x100, 0x10, 0, 0x3FF00000] with csr := { cfg with n := 2, lweN := 1, ksBasebit := 1, kskBase := 0x1000 } } 2 ⟨1, [0xFFFFFEFB], 0x8FFFFFE9, 0x3FF0000000000000⟩ &&
     faults (.ks 2 1) { ((base.lwes [(1, ⟨2, [0x60000000, 0x30000000], 0x10000000, 0⟩)]).words 0x1010 [5, 0x80000007, 0, 0]).words 0x1070 [0x100, 0x10, 0, 0x3FF00000] with csr := { cfg with n := 2, lweN := 1, ksBasebit := 1, kskBase := 2 } } .dmemMisaligned 2 &&
     faults (.ks 2 1) ({ (base.lwes [(1, triv 2 0)]) with keyL := some ⟨2, [true, false]⟩, keyR := some ⟨4, 1, [[true, false, true, true]]⟩ }) .paramMismatch 0x30001) = true := by decide +kernel

/-- R490's example, both signs. -/
theorem test_br_rot :
    (yieldsR (.brRot 0 1 2) ({ (base.sets [(2, 0x20000000)]).lwes [(1, triv 1 0x20000000)] with csr := { cfg with lweN := 1 }, bk := [(0, ⟨4, 1, 2, 4, List.replicate 4 ⟨[[0, 0, 0, 0], [0, 0, 0, 0]], 0⟩⟩)] }) 0 [[0, 0, 0, 0], [0x20000000, 0x20000000, 0x20000000, 0xE0000000]] &&
     yieldsR (.brRot 0 1 2) ({ (base.sets [(2, 0x20000000)]).lwes [(1, triv 1 0xE0000000)] with csr := { cfg with lweN := 1 }, bk := [(0, ⟨4, 1, 2, 4, List.replicate 4 ⟨[[0, 0, 0, 0], [0, 0, 0, 0]], 0⟩⟩)] }) 0 [[0, 0, 0, 0], [0xE0000000, 0x20000000, 0x20000000, 0x20000000]]) = true := by decide +kernel

/-- R491. -/
theorem test_boot_nks :
    (yieldsL (.bootNks 0 1 2) ({ (base.sets [(2, 0x20000000)]).lwes [(1, triv 1 0x20000000)] with csr := { cfg with lweN := 1 }, bk := [(0, ⟨4, 1, 2, 4, List.replicate 4 ⟨[[0, 0, 0, 0], [0, 0, 0, 0]], 0⟩⟩)] }) 0 (triv 4 0x20000000) &&
     yieldsL (.bootNks 0 1 2) ({ (base.sets [(2, 0x20000000)]).lwes [(1, triv 1 0xE0000000)] with csr := { cfg with lweN := 1 }, bk := [(0, ⟨4, 1, 2, 4, List.replicate 4 ⟨[[0, 0, 0, 0], [0, 0, 0, 0]], 0⟩⟩)] }) 0 (triv 4 0xE0000000)) = true := by decide +kernel

/-- R492, R480: the whole gate on trivial input; BK[1] unwritten; BK_FIT names LWE_N. -/
theorem test_boot :
    (yieldsL (.boot 0 1 2) ({ (base.sets [(2, 0x20000000)]).lwes [(1, triv 1 0xE0000000)] with csr := { cfg with lweN := 1 }, bk := [(0, ⟨4, 1, 2, 4, List.replicate 4 ⟨[[0, 0, 0, 0], [0, 0, 0, 0]], 0⟩⟩)] }) 0 (triv 1 0xE0000000) &&
     faults (.boot 0 1 2) { { (base.sets [(2, 0x20000000)]).lwes [(1, triv 1 0)] with csr := { cfg with lweN := 1 }, bk := [(0, ⟨4, 1, 2, 4, List.replicate 4 ⟨[[0, 0, 0, 0], [0, 0, 0, 0]], 0⟩⟩)] } with csr := cfg, lRegs := base.lRegs.set 1 (some (triv 2 0)) } .uninit 0x50001 &&
     faults (.boot 0 1 2) { { (base.sets [(2, 0x20000000)]).lwes [(1, triv 1 0)] with csr := { cfg with lweN := 1 }, bk := [(0, ⟨4, 1, 2, 4, List.replicate 4 ⟨[[0, 0, 0, 0], [0, 0, 0, 0]], 0⟩⟩)] } with csr := { cfg with lweN := 1025 } } .badParam 2) = true := by decide +kernel

/-- 95 §2.10 at N = 1024: b̄ of each input phase. -/
theorem test_boot_signs :
    (([0x20000000, 0xE0000000, 0x60000000, 0x80000000, 0x7FFFFFFF, 0x00100000, 0xFFF00000] : List Word).map (fun b => msfrom b 2048) == [256, 1792, 768, 1024, 1024, 1, 0]) = true := by decide +kernel

/-! ### The cycle, faults, reset and the host (95 §2.11, §2.12) -/

/-- R18: 1 + 1 = 2, 0.5·0.5 = 0.25, (2^−15)² = 2^−30, −1 from an integer, +0 − 0 = +0. -/
theorem test_f64 :
    (f64add 0x3FF0000000000000 0x3FF0000000000000 == 0x4000000000000000 &&
     f64mul 0x3FE0000000000000 0x3FE0000000000000 == 0x3FD0000000000000 &&
     f64mul 0x3F00000000000000 0x3F00000000000000 == 0x3E10000000000000 &&
     f64fromInt (-1) == 0xBFF0000000000000 &&
     f64add 0 0x8000000000000000 == 0) = true := by decide +kernel

/-- R200, R103: the word at pc is fetched and run. -/
theorem test_fetch_word :
    ((match step (base.withFetchWord 64 0x0000000400000110) with | .next t => t.getS 1 == some 4 && t.pc == 0x28 | _ => false) &&
     (match step (State.reset.withFetchWord 64 0x0000000000000002) with | .next t => t.runState == .halted && t.status == 0x102 | _ => false)) = true := by decide +kernel

/-- R200 item 4: FAULT_INFO keeps bits 31:0 only. -/
theorem test_illegal_word :
    ((match step (base.withFetchWord 64 0x0000000100000001) with | .next t => t.cause == .illegalInstr && t.faultInfo == 1 && t.faultPc == 0x20 && t.status == 0x103 | _ => false)) = true := by decide +kernel

/-- 95 §2.11: START_PC = IMEM_SIZE. -/
theorem test_fetch_oob :
    ((match step { base with pc := 0x10000 } with | .next t => t.cause == .fetchOob && t.faultInfo == 0x10000 && t.faultPc == 0x10000 | _ => false)) = true := by decide +kernel

/-- 95 §2.12: the host's view after power-on, through CSR offsets too. -/
theorem test_reset_port :
    (([0x00C, 0x000, 0x004, 0x1000, 0x1008, 0x104C, 0x1400] : List Word).map (fun o => (portRead State.reset o).1) == [0, 0x54464845, 7, 1024, 630, 0x81020000, 0]) = true := by decide +kernel

/-- R61, R542: RESET wins over START; START resumes at START_PC and clears the fault. -/
theorem test_host_ctrl :
    ((portWrite { base with runState := .halted } 0x008 3).runState == .idle &&
     (portWrite { (base.takeFault ⟨.badOperand, 8⟩) with startPc := 0x40 } 0x008 1) == { base with pc := 0x40, startPc := 0x40 }) = true := by decide +kernel

/-- R121, R541, 90_conflicts.md C11: DMEM reads 0, IMEM writes are ignored, IRQ_EN is kept. -/
theorem test_host_while_running :
    ((portRead (base.words 0x100 [7]) 0x10000100).1 == 0 &&
     portWrite base 0x01000000 5 == base &&
     (portWrite base 0x010 1).irqEn &&
     portWrite { base with runState := .idle } 0x1040 9 == { base with runState := .idle }) = true := by decide +kernel

/-- R62, R63: bit 8 is write-one-to-clear; CAUSE is kept. -/
theorem test_host_status :
    ((portWrite (base.takeFault ⟨.badOperand, 8⟩) 0x00C 0x100).status == 3 &&
     (portWrite (base.takeFault ⟨.badOperand, 8⟩) 0x00C 0x100).cause == .badOperand &&
     { base.takeFault ⟨.badOperand, 8⟩ with irqEn := true }.irqOut) = true := by decide +kernel

/-- R497: NAND(T, T) before the bootstrap is −1/8. -/
theorem test_gate_sequence :
    (Gate.phase .nand true true == 0xE0000000 &&
     Gate.phase .xor true true == 0xC0000000 &&
     Gate.phase .xnor false false == 0x40000000) = true := by decide +kernel

/-! ### Witnesses: states and operands that meet the hypotheses of the statements -/

/-- A running CORE with every file in use: parameters `cfg`, S15, P15, F7, L7 and R3 unwritten. -/
def demo : State :=
  { (((base.sets [(1, 0x200), (2, 2), (3, 0x20000000), (4, 8), (5, 7), (6, 3), (7, 0x0FFFFFFC), (8, 1023),
        (9, 1024), (10, 4)]).polys [(1, [1, 2, 3, 4]), (2, [5, 6, 7, 8]), (3, [0x7FFFF, 0xFFF80000, 0, 1])]).lwes
        [(0, ⟨2, [1, 2], 3, 0⟩), (1, ⟨2, [0x11111111, 0x22222222], 0x31111114, 0x3E10000000000000⟩),
          (2, ⟨4, [1, 2, 3, 4], 5, 0⟩), (3, triv 2 0xE0000000)]).words 0x200 [1, 0, 1, 1] with
    fRegs := ((base.fRegs.set 0 (some ⟨4, [0, 0, 0, 0], .z⟩)).set 1 (some ⟨4, [1, 0, 0, 0], .i 2⟩)).set 2
      (some ⟨4, [5, 6, 7, 8], .t⟩)
    rRegs := (base.rRegs.set 0 (some (trivR 4 [1, 2, 3, 4]))).set 1 (some (trivR 4 [5, 6, 7, 8]))
    bk := [(0, ⟨4, 1, 2, 4, List.replicate 4 ⟨[[0, 0, 0, 0], [0, 0, 0, 0]], 0⟩⟩),
      (1, ⟨4, 1, 2, 4, List.replicate 4 ⟨[[0, 0, 0, 0], [0, 0, 0, 0]], 0⟩⟩), (2, ⟨4, 1, 3, 4, []⟩)]
    keyL := some ⟨2, [true, false]⟩
    keyR := some ⟨4, 1, [[true, false, true, true]]⟩ }

/-- `demo` with other parameters. -/
def demoWith (c : Csrs) : State := { demo with csr := c }

/-- `demo` at a given pc with a word there. -/
def demoAt (pc : Nat) (w : InstrWord) : State :=
  { demo with pc := BitVec.ofNat 32 pc, imem := storeInstr [] pc w }

/-- Both clauses, at the last word of IMEM (R33), with an empty and with a quiet host turn. -/
theorem witness_StepRunsTheDecodedInstruction :
    (demoAt 65528 1).runState = .running ∧
    (demoAt 65528 1).pc.toNat % 8 = 0 ∧
    (demoAt 65528 1).pc.toNat + 8 ≤ (demoAt 65528 1).params.imemSize ∧
    memWord (demoAt 65528 1).imem 65528 = some 1 ∧
    memWord (demoAt 65528 1).imem 65532 = some 0 ∧
    decode ((0 : Word) ++ (1 : Word)) = .ok .nop ∧
    (demoAt 65528 1).hostIn = [] ∧
    ({ demoAt 65528 1 with hostIn := [.quiet] } : State).hostIn = [.quiet] := by decide +kernel

/-- A misaligned pc, pc = IMEM_SIZE, an illegal word at pc 0, and the three wait states. -/
theorem witness_CycleFaultsAndWaitStates :
    demo.runState = .running ∧
    demo.hostIn = [] ∧
    ({ demo with pc := 4 } : State).pc.toNat % 8 ≠ 0 ∧
    ({ demo with pc := 0x10000 } : State).pc.toNat % 8 = 0 ∧
    ({ demo with pc := 0x10000 } : State).params.imemSize < ({ demo with pc := 0x10000 } : State).pc.toNat + 8 ∧
    memWord (demoAt 0 0x27).imem 0 = some 0x27 ∧
    memWord (demoAt 0 0x27).imem 4 = some 0 ∧
    decode ((0 : Word) ++ (0x27 : Word)) = .error (.unlistedOpcode 0x27) ∧
    ({ demo with runState := .idle } : State).runState ≠ .running ∧
    ({ demo with runState := .halted } : State).runState ≠ .running ∧
    ({ demo with runState := .faulted } : State).runState ≠ .running := by decide +kernel

/-- A word that decodes and matches its row. -/
theorem witness_WordsAreRowsOrIllegal :
    decode 0x0000000000051334 = .ok (.pMulxai 3 1 5) ∧
    (⟨"P.MULXAI", 0x34, 0xFFFFFFFFFFF000FF⟩ : OpRow).matches 0x0000000000051334 = true ∧
    (⟨"P.MULXAI", 0x34, 0xFFFFFFFFFFF000FF⟩ : OpRow) ∈ opcodeTable := by decide +kernel

/-- The largest CSR number, the largest fields of an L row, and a word that decodes. -/
theorem witness_EncodingRoundTrip :
    Instr.wf (.csrw 15 4095) = true ∧
    Instr.wf (.lAddmul 7 7 15) = true ∧
    decode 0x00000FFF0000F004 = .ok (.csrw 15 4095) := by decide +kernel

/-- Listed and unlisted numbers, and both sides of the read-write limit, with and without a readable source. -/
theorem witness_SystemAndCsrResults :
    (csrRead demo 0x0F6) = some 65536 ∧
    csrRead demo 0x00A = none ∧
    csrRead demo 0xFFF = none ∧
    9 < 10 ∧
    demo.getS 1 = some 0x200 ∧
    demo.getS 15 = none ∧
    10 ≤ 10 := by decide +kernel

/-- GAD_OK with Bgbit = 32 and l = 1, and false with l = 0. -/
theorem witness_DerivedCsrValues :
    (demoWith { cfg with bkL := 1, bkBgbit := 32 }).gadOk = true ∧
    (demoWith { cfg with bkL := 0 }).gadOk = false := by decide +kernel

/-- Each clause. -/
theorem witness_ScalarWriteRule :
    (0 : SIdx) = 0 ∧
    (15 : SIdx) ≠ 0 ∧
    (14 : SIdx) ≠ 15 := by decide +kernel

/-- Readable operands, and shift amounts on both sides of 32. -/
theorem witness_ScalarArithmeticResults :
    demo.getS 1 = some 0x200 ∧
    demo.getS 2 = some 2 ∧
    (base.sets [(1, 31)]).getS 1 = some 31 ∧
    (base.sets [(1, 32)]).getS 1 = some 32 := by decide +kernel

/-- The last word of DMEM, unwritten; a written word; a readable source. -/
theorem witness_ScalarLoadStoreResults :
    demo.getS 7 = some 0x0FFFFFFC ∧
    (0x0FFFFFFC + 0 : Word).toNat % 4 = 0 ∧ (0x0FFFFFFC + 0 : Word).toNat + 4 ≤ demo.params.dmemSize ∧
    memWord demo.dmem (0x0FFFFFFC + 0 : Word).toNat = none ∧
    demo.getS 1 = some 0x200 ∧
    (0x200 + 8 : Word).toNat % 4 = 0 ∧ (0x200 + 8 : Word).toNat + 4 ≤ demo.params.dmemSize ∧
    memWord demo.dmem (0x200 + 8 : Word).toNat = some 1 ∧
    demo.getS 2 = some 2 := by decide +kernel

/-- Two readable registers, equal and unequal. -/
theorem witness_BranchAndJumpResults :
    demo.getS 1 = some 0x200 ∧
    demo.getS 2 = some 2 ∧
    (base.sets [(1, 2), (2, 2)]).getS 1 = some 2 ∧
    (base.sets [(1, 2), (2, 2)]).getS 2 = some 2 := by decide +kernel

/-- μ = M − 1, μ = M, and M = 0. -/
theorem witness_TorusInstructionResults :
    demo.getS 5 = some 7 ∧
    demo.getS 4 = some 8 ∧
    (8 : Word) ≠ 0 ∧
    (7 : Word).toNat < (8 : Word).toNat ∧
    (8 : Word).toNat ≤ (8 : Word).toNat ∧
    demo.getS 0 = some 0 := by decide +kernel

/-- The least and the greatest modulus with their greatest μ. -/
theorem witness_ModulusSwitchRoundTrip :
    1 ≤ 1 ∧ 1 < 2 ^ 32 ∧ 0 < 1 ∧
    1 ≤ 2 ^ 32 - 1 ∧ 2 ^ 32 - 1 < 2 ^ 32 ∧ 2 ^ 32 - 2 < 2 ^ 32 - 1 := by decide +kernel

/-- Operands of degree N, and exponents 2N − 1 and 2N. -/
theorem witness_PolynomialRingResults :
    demo.nOk = true ∧
    demo.ringN = 4 ∧
    demo.pRegs[(1 : PIdx)] = some ⟨4, [1, 2, 3, 4]⟩ ∧
    demo.pRegs[(2 : PIdx)] = some ⟨4, [5, 6, 7, 8]⟩ ∧
    demo.getS 2 = some 2 ∧
    demo.getS 5 = some 7 ∧
    (7 : Word).toNat < 2 * demo.ringN ∧
    demo.getS 4 = some 8 ∧
    2 * demo.ringN ≤ (8 : Word).toNat := by decide +kernel

/-- The exponents 0, N − 1, N and 2N − 1. -/
theorem witness_RotationIsMonomialProduct :
    ([1, 2, 3, 4] : List Word).length = 4 ∧
    0 < 2 * 4 ∧ 3 < 2 * 4 ∧ 4 < 2 * 4 ∧ 7 < 2 * 4 := by decide +kernel

/-- A multiplier of 4 bits and one of 21 bits. -/
theorem witness_PolynomialFftProductResult :
    demo.nOk = true ∧
    demo.ringN = 4 ∧
    demo.pRegs[(1 : PIdx)] = some ⟨4, [1, 2, 3, 4]⟩ ∧
    demo.pRegs[(2 : PIdx)] = some ⟨4, [5, 6, 7, 8]⟩ ∧
    sbits (ints 4 [1, 2, 3, 4]) ≤ 10 ∧
    10 < sbits (ints 4 [0x80000, 0, 0, 0]) := by decide +kernel

/-- A transfer that ends at DMEM_SIZE, and a register of length N. -/
theorem witness_PolynomialLoadStoreResults :
    demo.nOk = true ∧
    demo.ringN = 4 ∧
    (base.sets [(1, 0x0FFFFFF0)]).getS 1 = some 0x0FFFFFF0 ∧
    (0x0FFFFFF0 + 0 : Word).toNat % 4 = 0 ∧ (0x0FFFFFF0 + 0 : Word).toNat + 4 * demo.ringN ≤ demo.params.dmemSize ∧
    demo.pRegs[(1 : PIdx)] = some ⟨4, [1, 2, 3, 4]⟩ ∧
    ([1, 2, 3, 4] : List Word).length = 4 := by decide +kernel

/-- Both sides of 20, 10 and 1, and a valid F operand. -/
theorem witness_InverseTransformResult :
    20 ≤ 20 ∧ 20 < 21 ∧ 10 ≤ 10 ∧ 10 < 11 ∧ 2 ≤ 2 ∧
    demo.nOk = true ∧
    demo.ringN = 4 ∧
    demo.fRegs[(1 : FIdx)] = some ⟨4, [1, 0, 0, 0], .i 2⟩ := by decide +kernel

/-- A P operand, and the exponents N − 1, N, 2N − 1 and 2N. -/
theorem witness_FourierForwardResults :
    demo.nOk = true ∧
    demo.ringN = 4 ∧
    demo.pRegs[(1 : PIdx)] = some ⟨4, [1, 2, 3, 4]⟩ ∧
    demo.getS 6 = some 3 ∧
    (3 : Word).toNat < demo.ringN ∧
    demo.getS 10 = some 4 ∧
    demo.ringN ≤ (4 : Word).toNat ∧ (4 : Word).toNat < 2 * demo.ringN ∧
    demo.getS 5 = some 7 ∧
    demo.ringN ≤ (7 : Word).toNat ∧ (7 : Word).toNat < 2 * demo.ringN ∧
    demo.getS 4 = some 8 ∧
    2 * demo.ringN ≤ (8 : Word).toNat := by decide +kernel

/-- Every combination of classes the rule names. -/
theorem witness_FourierMulAddResult :
    demo.nOk = true ∧
    demo.ringN = 4 ∧
    demo.fRegs[(1 : FIdx)] = some ⟨4, [1, 0, 0, 0], .i 2⟩ ∧
    demo.fRegs[(2 : FIdx)] = some ⟨4, [5, 6, 7, 8], .t⟩ ∧
    demo.fRegs[(0 : FIdx)] = some ⟨4, [0, 0, 0, 0], .z⟩ ∧
    (ErrClass.m 2 1 = .m 2 1 ∧ ErrClass.g ≠ .z) := by decide +kernel

/-- Coefficients −2^19 and 2^19 − 1, and an F.FWDI that completes. -/
theorem witness_ForwardThenInverseIsExact :
    demo.nOk = true ∧ demo.pRegs[(3 : PIdx)] = some ⟨4, [0x7FFFF, 0xFFF80000, 0, 1]⟩ ∧ demo.ringN = 4 ∧
    (∀ i, -2 ^ 19 ≤ (coeff [0x7FFFF, 0xFFF80000, 0, 1] i).toInt ∧ (coeff [0x7FFFF, 0xFFF80000, 0, 1] i).toInt < 2 ^ 19) ∧
    ∃ t, exec (.fFwdi 1 3) demo = .next t := by
  refine ⟨by decide +kernel, by decide +kernel, by decide +kernel, fun i => ?_, _, rfl⟩
  match i with
  | 0 | 1 | 2 | 3 => decide
  | n + 4 =>
    show -2 ^ 19 ≤ (0 : Word).toInt ∧ (0 : Word).toInt < 2 ^ 19
    decide

/-- A message, and both keys matching. -/
theorem witness_LweEncryptResults :
    demo.getS 3 = some 0x20000000 ∧
    demo.lweOk = true ∧
    demo.lweN = 2 ∧
    demo.keyL = some ⟨2, [true, false]⟩ ∧
    demo.ringOk = true ∧
    demo.ringN = 4 ∧
    demo.rankK = 1 ∧
    demo.keyR = some ⟨4, 1, [[true, false, true, true]]⟩ := by decide +kernel

/-- An L.ENC that completes. -/
theorem witness_EncryptThenPhase :
    (demo.lweOk = true ∧ demo.lweN = 2 ∧ demo.getS 3 = some 0x20000000 ∧ demo.keyL = some ⟨2, [true, false]⟩) ∧
    ∃ t, exec (.lEnc 7 3) demo = .next t := ⟨by decide +kernel, _, rfl⟩

/-- A sample of either dimension, both keys, M = 8 and M = 0. -/
theorem witness_LweDecryptResults :
    demo.lweOk = true ∧
    demo.lweN = 2 ∧
    demo.keyL = some ⟨2, [true, false]⟩ ∧
    demo.lRegs[(1 : LIdx)] = some ⟨2, [0x11111111, 0x22222222], 0x31111114, 0x3E10000000000000⟩ ∧
    demo.getS 4 = some 8 ∧
    demo.getS 0 = some 0 ∧
    demo.ringOk = true ∧
    demo.ringN = 4 ∧
    demo.rankK = 1 ∧
    demo.extN = 4 ∧
    demo.keyR = some ⟨4, 1, [[true, false, true, true]]⟩ ∧
    demo.lRegs[(2 : LIdx)] = some ⟨4, [1, 2, 3, 4], 5, 0⟩ := by decide +kernel

/-- Two samples of one dimension, and a multiplier. -/
theorem witness_LweLinearResults :
    demo.lweOk = true ∧
    demo.ringOk = true ∧
    demo.getS 2 = some 2 ∧
    demo.lRegs[(0 : LIdx)] = some ⟨2, [1, 2], 3, 0⟩ ∧
    demo.lRegs[(1 : LIdx)] = some ⟨2, [0x11111111, 0x22222222], 0x31111114, 0x3E10000000000000⟩ := by decide +kernel

/-- Two samples of one dimension. -/
theorem witness_LwePhaseIsLinear :
    (triv 2 5).dim = (triv 2 7).dim := by decide +kernel

/-- Transfers that end at DMEM_SIZE, for n, for k·N and for a register. -/
theorem witness_LweLoadStoreResults :
    demo.lweOk = true ∧
    demo.ringOk = true ∧
    demo.lweN = 2 ∧
    demo.extN = 4 ∧
    demo.lRegs[(0 : LIdx)] = some ⟨2, [1, 2], 3, 0⟩ ∧
    (base.sets [(1, 0x0FFFFFEC)]).getS 1 = some 0x0FFFFFEC ∧
    (0x0FFFFFEC + 0 : Word).toNat % 4 = 0 ∧ (0x0FFFFFEC + 0 : Word).toNat + (4 * demo.lweN + 12) ≤ demo.params.dmemSize ∧
    (base.sets [(1, 0x0FFFFFE4)]).getS 1 = some 0x0FFFFFE4 ∧
    (0x0FFFFFE4 + 0 : Word).toNat % 4 = 0 ∧ (0x0FFFFFE4 + 0 : Word).toNat + (4 * demo.extN + 12) ≤ demo.params.dmemSize := by decide +kernel

/-- An L.ST that completes. -/
theorem witness_LweStoreThenLoad :
    (demo.lweOk = true ∧ demo.lweN = 2 ∧ demo.getS 1 = some 0x200 ∧ demo.lRegs[(0 : LIdx)] = some ⟨2, [1, 2], 3, 0⟩ ∧
    (0x200 + 0 : Word).toNat % 4 = 0 ∧ (0x200 + 0 : Word).toNat + (4 * demo.lweN + 12) ≤ demo.params.dmemSize) ∧
    ∃ t, exec (.lSt 0 1 0) demo = .next t := ⟨by decide +kernel, _, rfl⟩

/-- Key images of n and of k·N words, all zeros and ones, and one whose word 1 is 2. -/
theorem witness_KeyLoadResults :
    demo.lweOk = true ∧
    demo.ringOk = true ∧
    demo.lweN = 2 ∧
    demo.extN = 4 ∧
    demo.getS 1 = some 0x200 ∧
    (0x200 + 0 : Word).toNat % 4 = 0 ∧ (0x200 + 0 : Word).toNat + 4 * demo.extN ≤ demo.params.dmemSize ∧
    (∀ i, i < demo.lweN → memWord demo.dmem ((0x200 + 0 : Word).toNat + 4 * i) = some (coeff [1, 0, 1, 1] i)) ∧
    (∀ i, i < demo.extN → memWord demo.dmem ((0x200 + 0 : Word).toNat + 4 * i) = some (coeff [1, 0, 1, 1] i)) ∧
    (∀ i, i < demo.extN → coeff [1, 0, 1, 1] i = 0 ∨ coeff [1, 0, 1, 1] i = 1) ∧
    (∀ i, i < demo.extN → memWord (demo.words 0x200 [1, 2, 1, 1]).dmem ((0x200 + 0 : Word).toNat + 4 * i) = some (coeff [1, 2, 1, 1] i)) ∧
    coeff [1, 2, 1, 1] 1 ≠ 0 ∧ coeff [1, 2, 1, 1] 1 ≠ 1 ∧
    (∀ j, j < 1 → coeff [1, 2, 1, 1] j = 0 ∨ coeff [1, 2, 1, 1] j = 1) := by decide +kernel

/-- KEYR matching, and a message of degree N. -/
theorem witness_RlweEncryptResults :
    demo.ringOk = true ∧
    demo.ringN = 4 ∧
    demo.rankK = 1 ∧
    demo.keyR = some ⟨4, 1, [[true, false, true, true]]⟩ ∧
    demo.pRegs[(1 : PIdx)] = some ⟨4, [1, 2, 3, 4]⟩ := by decide +kernel

/-- Two samples, a message, KEYR, and the exponents 2N − 1 and 2N. -/
theorem witness_RlweLinearResults :
    demo.ringOk = true ∧
    demo.ringN = 4 ∧
    demo.rankK = 1 ∧
    demo.keyR = some ⟨4, 1, [[true, false, true, true]]⟩ ∧
    demo.pRegs[(1 : PIdx)] = some ⟨4, [1, 2, 3, 4]⟩ ∧
    demo.rRegs[(0 : RIdx)] = some (trivR 4 [1, 2, 3, 4]) ∧
    demo.rRegs[(1 : RIdx)] = some (trivR 4 [5, 6, 7, 8]) ∧
    demo.getS 5 = some 7 ∧
    (7 : Word).toNat < 2 * demo.ringN ∧
    demo.getS 4 = some 8 ∧
    2 * demo.ringN ≤ (8 : Word).toNat := by decide +kernel

/-- Two samples and multipliers of 4 and of 21 bits. -/
theorem witness_RlweAddMulResult :
    demo.ringOk = true ∧
    demo.ringN = 4 ∧
    demo.rankK = 1 ∧
    demo.pRegs[(1 : PIdx)] = some ⟨4, [1, 2, 3, 4]⟩ ∧
    demo.rRegs[(0 : RIdx)] = some (trivR 4 [1, 2, 3, 4]) ∧
    demo.rRegs[(1 : RIdx)] = some (trivR 4 [5, 6, 7, 8]) ∧
    sbits (ints 4 [1, 2, 3, 4]) ≤ 10 ∧
    10 < sbits (ints 4 [0x80000, 0, 0, 0]) := by decide +kernel

/-- The indices N − 1 and N, and a place of the result. -/
theorem witness_RlweExtractResult :
    demo.ringOk = true ∧
    demo.ringN = 4 ∧
    demo.rankK = 1 ∧
    demo.rRegs[(0 : RIdx)] = some (trivR 4 [1, 2, 3, 4]) ∧
    demo.getS 6 = some 3 ∧
    (3 : Word).toNat < demo.ringN ∧
    demo.getS 10 = some 4 ∧
    demo.ringN ≤ (4 : Word).toNat ∧
    0 < demo.rankK ∧ 3 < demo.ringN := by decide +kernel

/-- The last index, with a matching key. -/
theorem witness_ExtractionKeepsThePhase :
    3 < 4 ∧
    (⟨4, 1, [[true, false, true, true]]⟩ : KeyR).deg = 4 ∧
    (⟨4, 1, [[true, false, true, true]]⟩ : KeyR).k = 1 := by decide +kernel

/-- A transfer that ends at DMEM_SIZE, and a sample to store. -/
theorem witness_RlweLoadStoreResults :
    demo.ringOk = true ∧
    demo.ringN = 4 ∧
    demo.rankK = 1 ∧
    demo.rRegs[(0 : RIdx)] = some (trivR 4 [1, 2, 3, 4]) ∧
    (base.sets [(1, 0x0FFFFFD8)]).getS 1 = some 0x0FFFFFD8 ∧
    (0x0FFFFFD8 + 0 : Word).toNat % 4 = 0 ∧ (0x0FFFFFD8 + 0 : Word).toNat + (4 * (demo.rankK + 1) * demo.ringN + 8) ≤ demo.params.dmemSize := by decide +kernel

/-- A run that ends at P15, and one that would pass it. -/
theorem witness_GadgetDecomposeResult :
    demo.nOk = true ∧
    demo.gadOk = true ∧
    demo.ringN = 4 ∧
    demo.pRegs[(1 : PIdx)] = some ⟨4, [1, 2, 3, 4]⟩ ∧
    (14 : PIdx).val + demo.gadL ≤ 16 ∧
    16 < (15 : PIdx).val + demo.gadL := by decide +kernel

/-- l·Bgbit = 32, with its first and last digit. -/
theorem witness_GadgetReconstruction :
    1 ≤ 8 ∧ 1 ≤ 4 ∧ 8 * 4 ≤ 32 ∧
    1 ≤ 1 ∧ 1 ≤ 32 ∧ 1 * 32 ≤ 32 ∧
    0 < 8 ∧ 7 < 8 := by decide +kernel

/-- The last slot and the one past it, KEYR, and an image that ends at DMEM_SIZE. -/
theorem witness_GadgetKeyResults :
    demo.ringOk = true ∧
    demo.gadOk = true ∧
    demo.ringN = 4 ∧
    demo.rankK = 1 ∧
    demo.keyR = some ⟨4, 1, [[true, false, true, true]]⟩ ∧
    demo.getS 2 = some 2 ∧
    demo.getS 8 = some 1023 ∧
    (1023 : Word).toNat < demo.params.bkSlots ∧
    demo.getS 9 = some 1024 ∧
    demo.params.bkSlots ≤ (1024 : Word).toNat ∧
    (base.sets [(1, 0x0FFFFF60)]).getS 1 = some 0x0FFFFF60 ∧
    (0x0FFFFF60 + 0 : Word).toNat % 4 = 0 ∧ (0x0FFFFF60 + 0 : Word).toNat + (demo.rankK + 1) * demo.gadL * (4 * (demo.rankK + 1) * demo.ringN + 8) ≤ demo.params.dmemSize := by decide +kernel

/-- A slot that fits, one never written, one with a stale gadget length, and the first past the store. -/
theorem witness_ExternalProductResult :
    demo.ringOk = true ∧
    demo.gadOk = true ∧
    demo.ringN = 4 ∧
    demo.rankK = 1 ∧
    demo.rRegs[(0 : RIdx)] = some (trivR 4 [1, 2, 3, 4]) ∧
    demo.getS 0 = some 0 ∧
    (demo.getBk 0).map (bkFits demo) = some true ∧
    demo.getBk 1023 = none ∧
    demo.getS 8 = some 1023 ∧
    (demo.getBk 2).map (bkFits demo) = some false ∧
    demo.getS 2 = some 2 ∧
    (1023 : Word).toNat < demo.params.bkSlots ∧
    demo.getS 9 = some 1024 ∧
    demo.params.bkSlots ≤ (1024 : Word).toNat := by decide +kernel

/-- A gadget matrix with l·Bgbit = 32 at N = 1, and the last component and coefficient. -/
theorem witness_ExternalProductByGadgetMatrix :
    ∃ g : Rgsw, (1 ≤ 1 ∧ 1 ≤ 8 ∧ 1 ≤ 4 ∧ 8 * 4 ≤ 32) ∧
    g.rows = (vec ((1 + 1) * 8) fun p => ⟨vec (1 + 1) fun q => vec 1 fun t =>
      if q = p / 8 ∧ t = 0 then BitVec.ofNat 32 (gadgetH 4 (p % 8)) else 0, 0⟩) ∧ 1 ≤ 1 ∧ 0 < 1 := ⟨⟨1, 1, 8, 4, _⟩, by decide, rfl, by decide, by decide⟩

/-- A bootstrapping key and a key-switching key that are ready. -/
theorem demo_ready : demo.bkReady ∧ demo.kskReady := by
  refine ⟨fun i hi => ?_, by decide +kernel, by decide +kernel⟩
  have h2 : demo.lweN = 2 := by decide +kernel
  have h3 : i = 0 ∨ i = 1 := by omega
  rcases h3 with rfl | rfl
  · exact ⟨⟨4, 1, 2, 4, List.replicate 4 ⟨[[0, 0, 0, 0], [0, 0, 0, 0]], 0⟩⟩, by decide +kernel, by decide +kernel⟩
  · exact ⟨⟨4, 1, 2, 4, List.replicate 4 ⟨[[0, 0, 0, 0], [0, 0, 0, 0]], 0⟩⟩, by decide +kernel, by decide +kernel⟩

/-- A sample of dimension k·N to switch, one of dimension n to bootstrap, and both keys ready. -/
theorem witness_KeySwitchAndBootstrapResults :
    (demo.ringOk = true ∧ demo.lweOk = true ∧ demo.gadOk = true ∧ demo.ksOk = true ∧ demo.bkFit = true ∧
    demo.extN = 4 ∧ demo.lweN = 2 ∧ demo.getS 3 = some 0x20000000 ∧
    demo.lRegs[(2 : LIdx)] = some ⟨4, [1, 2, 3, 4], 5, 0⟩ ∧ demo.lRegs[(1 : LIdx)] = some ⟨2, [0x11111111, 0x22222222],
      0x31111114, 0x3E10000000000000⟩) ∧ demo.bkReady ∧ demo.kskReady := ⟨by decide +kernel, demo_ready⟩

/-- One source word with one non-zero digit, whose entry is written. -/
theorem witness_KeySwitchSubtractsTheSelectedEntries :
    ∃ w : Nat → Nat → Nat → Word, ksDigit 1 1 0 (coeff [0x80000000] 0) ≠ 0 ∧
    ∀ i j, i < 1 → j < 1 → ksDigit 1 1 j (coeff [0x80000000] i) ≠ 0 → ∀ q, q < 1 + 3 →
      memWord (storeWords [] 16 [5, 6, 7, 8]) (0 + ((i * 1 + j) * 2 ^ 1 + ksDigit 1 1 j (coeff [0x80000000] i)) * (4 * 1 + 12) + 4 * q)
        = some (w i j q) := by
  refine ⟨fun _ _ q => coeff [5, 6, 7, 8] q, by decide +kernel, fun i j hi hj _ q hq => ?_⟩
  obtain rfl : i = 0 := by omega
  obtain rfl : j = 0 := by omega
  have hq' : q = 0 ∨ q = 1 ∨ q = 2 ∨ q = 3 := by omega
  rcases hq' with rfl | rfl | rfl | rfl <;> decide +kernel

/-- t·base_bit = 31 both ways. -/
theorem witness_KeySwitchDigitsRound :
    1 ≤ 31 ∧ 1 ≤ 1 ∧ 31 * 1 ≤ 31 ∧
    1 ≤ 1 ∧ 1 ≤ 31 ∧ 1 * 31 ≤ 31 := by decide +kernel

/-- A skipped and a non-skipped iteration, and the key bit's slot. -/
theorem witness_BlindRotationSteps :
    msfrom (coeff [0, 0x20000000] 0) (2 * 4) = 0 ∧
    msfrom (coeff [0, 0x20000000] 1) (2 * 4) ≠ 0 ∧
    (assocGet demo.bk 1).isSome = true := by decide +kernel

/-- A trivial sample of −1/8, and of +1/8. -/
theorem witness_BootstrapSignOfTrivialSamples :
    (demo.ringOk = true ∧ demo.lweOk = true ∧ demo.gadOk = true ∧ demo.bkFit = true ∧ demo.lweN = 2 ∧ demo.ringN = 4 ∧
    demo.getS 3 = some 0x20000000 ∧ demo.lRegs[(3 : LIdx)] = some (triv 2 0xE0000000) ∧
    (∀ i, i < 2 → msfrom (coeff (triv 2 0xE0000000).a i) (2 * 4) = 0) ∧ ¬ msfrom 0xE0000000 (2 * 4) < 4 ∧
    msfrom 0x20000000 (2 * 4) < 4) ∧ demo.bkReady := ⟨by decide +kernel, demo_ready.1⟩

/-- The least and the greatest degree. -/
theorem witness_GateBiasesGiveTheTruthTable :
    (degreeOk 4 ∧ 4 ≤ 4) ∧ (degreeOk 2048 ∧ 4 ≤ 2048) := by unfold degreeOk; decide

/-- Every parameter predicate holds in `demo`. -/
theorem demo_params (p : ParamPred) : p.Holds demo := by
  cases p <;> simp only [paramN_holds, paramK_holds, paramLwe_holds, paramGad_holds, paramKs_holds, paramBkFit_holds]
    <;> decide +kernel

/-- The predicates read the CSRs and the sizes only. -/
theorem params_of_demo {s : State} (hc : s.csr = demo.csr) (hp : s.params = demo.params) (p : ParamPred) : p.Holds s := by
  have h := demo_params p
  cases p <;> simpa only [ParamPred.Holds, hc, hp] using h

/-- An instruction that reads S registers only. -/
theorem operandsOk_of_scalars {i : Instr} {s : State} (hp : ∀ p ∈ neededParams i, p.Holds s)
    (h : ∀ o ∈ readOperands i, ∃ j, o = .s j ∧ s.getS j ≠ none) : OperandsOk i s := by
  refine ⟨hp, fun o ho => ?_, fun o ho => ?_⟩ <;> obtain ⟨j, rfl, hj⟩ := h o ho
  · exact hj
  · trivial

/-- `demo` with other slots. -/
def demoBk (bk : Assoc Rgsw) : State := { demo with bk := bk }

/-- `demo` without keys. -/
def demoNoKeys : State := { demo with keyL := none, keyR := none }

/-- BOOT in `demo`, whatever the slots hold. -/
theorem demo_boot_ok (bk : Assoc Rgsw) : OperandsOk (.boot 7 1 3) (demoBk bk) := by
  have h3 : demo.getS 3 = some 0x20000000 := by decide +kernel
  have hl : demo.lRegs[(1 : LIdx)] = some ⟨2, [0x11111111, 0x22222222], 0x31111114, 0x3E10000000000000⟩ := by
    decide +kernel
  refine ⟨fun p _ => params_of_demo rfl rfl p, fun o ho => ?_, fun o ho => ?_⟩ <;>
    simp only [readOperands, List.mem_cons, List.not_mem_nil, or_false] at ho <;> rcases ho with rfl | rfl
  · exact readableL_iff.mpr ⟨_, hl⟩
  · exact readableS_iff.mpr ⟨0x20000000, h3⟩
  · exact (fitsL_iff (s := demoBk bk) (i := .boot 7 1 3) (j := 1) (d := demo.lweN) hl rfl).mpr (by decide +kernel)
  · trivial

/-- Each predicate as the first false one of BOOT, just past its range; and N = 3 and K = 3. -/
theorem witness_IllegalRingParametersFault :
    neededParams (.boot 0 0 2) = [ParamPred.n, .k, .lwe, .gad, .ks, .bkFit] ∧
    (∀ q ∈ ([] : List ParamPred), q.Holds (demoWith { cfg with n := 3 })) ∧ ¬ ParamPred.n.Holds (demoWith { cfg with n := 3 }) ∧
    neededParams (.boot 0 0 2) = [ParamPred.n, ParamPred.k, .lwe, .gad, .ks, .bkFit] ∧
    (∀ q ∈ ([ParamPred.n] : List ParamPred), q.Holds (demoWith { cfg with k := 3 })) ∧ ¬ ParamPred.k.Holds (demoWith { cfg with k := 3 }) ∧
    neededParams (.boot 0 0 2) = [ParamPred.n, ParamPred.k, ParamPred.lwe, .gad, .ks, .bkFit] ∧
    (∀ q ∈ ([ParamPred.n, ParamPred.k] : List ParamPred), q.Holds (demoWith { cfg with lweN := 4097 })) ∧ ¬ ParamPred.lwe.Holds (demoWith { cfg with lweN := 4097 }) ∧
    neededParams (.boot 0 0 2) = [ParamPred.n, ParamPred.k, ParamPred.lwe, ParamPred.gad, .ks, .bkFit] ∧
    (∀ q ∈ ([ParamPred.n, ParamPred.k, ParamPred.lwe] : List ParamPred), q.Holds (demoWith { cfg with bkL := 9 })) ∧ ¬ ParamPred.gad.Holds (demoWith { cfg with bkL := 9 }) ∧
    neededParams (.boot 0 0 2) = [ParamPred.n, ParamPred.k, ParamPred.lwe, ParamPred.gad, ParamPred.ks, .bkFit] ∧
    (∀ q ∈ ([ParamPred.n, ParamPred.k, ParamPred.lwe, ParamPred.gad] : List ParamPred), q.Holds (demoWith { cfg with ksT := 16 })) ∧ ¬ ParamPred.ks.Holds (demoWith { cfg with ksT := 16 }) ∧
    neededParams (.boot 0 0 2) = [ParamPred.n, ParamPred.k, ParamPred.lwe, ParamPred.gad, ParamPred.ks, ParamPred.bkFit] ∧
    (∀ q ∈ ([ParamPred.n, ParamPred.k, ParamPred.lwe, ParamPred.gad, ParamPred.ks] : List ParamPred), q.Holds (demoWith { cfg with lweN := 1025 })) ∧ ¬ ParamPred.bkFit.Holds (demoWith { cfg with lweN := 1025 }) ∧
    needsDegree (.pClr 0) = true ∧ (demoWith { cfg with n := 3 }).nOk = false ∧ needsRank (.rEnc0 0) = true ∧
    (demoWith { cfg with k := 3 }).nOk = true ∧ (demoWith { cfg with k := 3 }).kOk = false := by
  simp only [List.mem_cons, List.not_mem_nil, or_false, forall_eq_or_imp, forall_eq, false_imp_iff, implies_true, true_and,
    paramN_holds, paramK_holds, paramLwe_holds, paramGad_holds, paramKs_holds, paramBkFit_holds]
  decide +kernel

/-- The last register listed is the first unreadable one, in field A, B and D, of each file; CSRW's last read-write number; both keys; the last slot. -/
theorem witness_UninitialisedOperandsFault :
    (∀ p : ParamPred, p.Holds demo) ∧
    (readOperands (.csrw 15 9) = [.s 15] ∧ 9 < 10 ∧ ¬ (RegOperand.s 15).Readable demo) ∧
    (readOperands (.sAdd 1 2 15) = [.s 2, .s 15] ∧ (RegOperand.s 2).Readable demo) ∧
    (readOperands (.pAddmulz 15 1 2) = [.p 1, .s 2, .p 15] ∧ (RegOperand.p 1).Readable demo ∧
      ¬ (RegOperand.p 15).Readable demo) ∧
    (readOperands (.fMuladd 7 1 2) = [.f 1, .f 2, .f 7] ∧ (RegOperand.f 1).Readable demo ∧
      (RegOperand.f 2).Readable demo ∧ ¬ (RegOperand.f 7).Readable demo) ∧
    (readOperands (.lAdd 7 1) = [.l 1, .l 7] ∧ (RegOperand.l 1).Readable demo ∧
      ¬ (RegOperand.l 7).Readable demo) ∧
    (readOperands (.rAddmulr 3 1 1) = [.p 1, .r 1, .r 3] ∧ (RegOperand.r 1).Readable demo ∧
      ¬ (RegOperand.r 3).Readable demo) ∧
    (OperandsOk (.lEnc 7 3) demoNoKeys ∧ OperandsOk (.gEnc 2 3) demoNoKeys) ∧
    OperandsOk (.boot 7 1 3) (demoBk (demo.bk.take 1)) ∧ 1 < demo.lweN ∧
    (∀ j, j < 1 → ∃ g, (demoBk (demo.bk.take 1)).getBk j = some g ∧ bkFits demo g = true) ∧
    (demoBk (demo.bk.take 1)).getBk 1 = none := by
  refine ⟨demo_params, by simp only [RegOperand.Readable]; decide +kernel, by simp only [RegOperand.Readable]; decide +kernel,
    by simp only [RegOperand.Readable]; decide +kernel, by simp only [RegOperand.Readable]; decide +kernel,
    by simp only [RegOperand.Readable]; decide +kernel, by simp only [RegOperand.Readable]; decide +kernel,
    ⟨operandsOk_of_scalars (fun p _ => params_of_demo rfl rfl p) fun o ho => ?_,
      operandsOk_of_scalars (fun p _ => params_of_demo rfl rfl p) fun o ho => ?_⟩,
    demo_boot_ok _, by decide +kernel, fun j hj => ?_, by decide +kernel⟩
  · exact ⟨3, by simpa [readOperands] using ho, by decide +kernel⟩
  · simp only [readOperands, List.mem_cons, List.not_mem_nil, or_false] at ho
    rcases ho with rfl | rfl
    · exact ⟨2, rfl, by decide +kernel⟩
    · exact ⟨3, rfl, by decide +kernel⟩
  · obtain rfl : j = 0 := by omega
    exact ⟨⟨4, 1, 2, 4, List.replicate 4 ⟨[[0, 0, 0, 0], [0, 0, 0, 0]], 0⟩⟩, by decide +kernel, by decide +kernel⟩

/-- `demo` with a stale key of each kind. -/
def demoStaleKeys : State := { demo with keyL := some ⟨3, [true, false, true]⟩, keyR := some ⟨4, 2, [[], []]⟩ }

/-- A stale tag in field A and B, an accumulator of another dimension, stale keys, a stale slot, and spans that are misaligned and past DMEM_SIZE, BOOT's key-switching key among them. -/
theorem witness_BadTransfersAndStaleTagsFault :
    (∀ p : ParamPred, p.Holds demo) ∧
    (readOperands (.lAdd 1 2) = [.l 2, .l 1] ∧ (∀ q ∈ readOperands (.lAdd 1 2), q.Readable demo) ∧
      RegOperand.Fits (.lAdd 1 2) demo (.l 2) ∧ ¬ RegOperand.Fits (.lAdd 1 2) demo (.l 1)) ∧
    (readOperands (.pAdd 4 1 2) = [.p 1, .p 2] ∧ ¬ RegOperand.Fits (.pAdd 4 1 2) (demoWith { cfg with n := 8 }) (.p 1)) ∧
    (readOperands (.rAdd 0 1) = [.r 1, .r 0] ∧ ¬ RegOperand.Fits (.rAdd 0 1) (demoWith { cfg with k := 2 }) (.r 1)) ∧
    (OperandsOk (.lEnc 7 3) demoStaleKeys ∧ OperandsOk (.gEnc 2 3) demoStaleKeys ∧ 3 ≠ demoStaleKeys.lweN ∧
      ¬ (4 = demoStaleKeys.ringN ∧ 2 = demoStaleKeys.rankK)) ∧
    (OperandsOk (.boot 7 1 3) (demoBk ((1, ⟨4, 1, 3, 4, []⟩) :: [])) ∧ 1 < demo.lweN ∧
      ¬ (4 = demo.ringN ∧ 1 = demo.rankK ∧ 3 = demo.gadL ∧ 4 = demo.gadBits)) ∧
    (OperandsOk (.gLd 2 1 2) demo ∧ (2 : Word).toNat < demo.params.bkSlots ∧
      checkedSpan (.gLd 2 1 2) demo = some (0x202, 160) ∧ (0x202 : Word).toNat % 4 ≠ 0 ∧
      checkedSpan (.gLd 2 1 0x0FFFFD64) demo = some (0x0FFFFF64, 160) ∧ (0x0FFFFF64 : Word).toNat % 4 = 0 ∧
      demo.params.dmemSize < (0x0FFFFF64 : Word).toNat + 160) ∧
    (OperandsOk (.boot 7 1 3) demo ∧ demo.bkReady ∧ checkedSpan (.boot 7 1 3) demo = some (demo.csr.kskBase, 640)) := by
  have hl : demo.lRegs[(2 : LIdx)] = some ⟨4, [1, 2, 3, 4], 5, 0⟩ := by decide +kernel
  have hl1 : demo.lRegs[(1 : LIdx)] = some ⟨2, [0x11111111, 0x22222222], 0x31111114, 0x3E10000000000000⟩ := by
    decide +kernel
  have hw : wantedDim (.lAdd 1 2) demo = some 4 := by decide +kernel
  have hp : (demoWith { cfg with n := 8 }).pRegs[(1 : PIdx)] = some ⟨4, [1, 2, 3, 4]⟩ := by decide +kernel
  have hr : (demoWith { cfg with k := 2 }).rRegs[(1 : RIdx)] = some (trivR 4 [5, 6, 7, 8]) := by decide +kernel
  have hs : ∀ a b : SIdx, demo.getS a ≠ none → demo.getS b ≠ none → ∀ o ∈ [RegOperand.s a, .s b],
      ∃ j, o = .s j ∧ demo.getS j ≠ none := by
    intro a b ha hb o ho
    simp only [List.mem_cons, List.not_mem_nil, or_false] at ho
    rcases ho with rfl | rfl
    · exact ⟨a, rfl, ha⟩
    · exact ⟨b, rfl, hb⟩
  have hq : ∀ q ∈ readOperands (.lAdd 1 2), q.Readable demo := by
    simp only [readOperands, List.mem_cons, List.not_mem_nil, or_false, forall_eq_or_imp, forall_eq, RegOperand.Readable]
    decide +kernel
  refine ⟨demo_params, ⟨rfl, hq, (fitsL_iff hl hw).mpr rfl,
      fun h => absurd ((fitsL_iff hl1 hw).mp h) (by decide)⟩,
    ⟨rfl, fun h => absurd ((fitsP_iff hp).mp h) (by decide +kernel)⟩,
    ⟨rfl, fun h => absurd ((fitsR_iff hr).mp h) (by decide +kernel)⟩,
    ⟨operandsOk_of_scalars (fun p _ => params_of_demo rfl rfl p) fun o ho => ?_,
      operandsOk_of_scalars (fun p _ => params_of_demo rfl rfl p)
        (hs 2 3 (by decide +kernel) (by decide +kernel)), by decide +kernel, by decide +kernel⟩,
    ⟨demo_boot_ok _, by decide +kernel, by decide +kernel⟩,
    ⟨operandsOk_of_scalars (fun p _ => demo_params p) (hs 1 2 (by decide +kernel) (by decide +kernel)),
      by decide +kernel, by decide +kernel, by decide +kernel, by decide +kernel, by decide +kernel, by decide +kernel⟩,
    demo_boot_ok _, demo_ready.1, by decide +kernel⟩
  exact hs 3 3 (by decide +kernel) (by decide +kernel) o (by simpa [readOperands] using ho)

/-- A fault that is taken. -/
theorem witness_FaultActionAndFaultFrame :
    demo.runState = .running ∧ ∃ t, exec (.pMulxai 4 1 4) demo = .next t ∧ t.runState = .faulted := ⟨by decide +kernel, _, rfl, rfl⟩

/-- A store that completes. -/
theorem witness_InstructionsWriteOnlyTheirDestinations :
    demo.runState = .running ∧ ∃ t, exec (.pSt 1 1 0) demo = .next t ∧ t.runState ≠ .faulted := ⟨by decide +kernel, _, rfl, by decide +kernel⟩

/-- A fault, a completion, and HALT. -/
theorem witness_SequentialPcAdvance :
    demo.runState = .running ∧ (∃ t, exec (.pMulxai 4 1 4) demo = .next t ∧ t.runState = .faulted) ∧
    (∃ t, exec .nop demo = .next t ∧ t.runState ≠ .faulted ∧ isControl .nop = false) ∧ ∃ t, exec .halt demo = .next t := ⟨by decide +kernel, ⟨_, rfl, rfl⟩, ⟨_, rfl, by decide +kernel, rfl⟩, _, rfl⟩

/-- The default sizes. -/
theorem witness_PowerOnStateIsWellFormed :
    Params.default.Ok := by constructor <;> decide

/-- A well-formed state that steps: reset with a START as the host's first turn. -/
theorem witness_EveryStepKeepsWellFormed :
    ({ State.reset with hostIn := [.write 0x008 1] } : State).Wf ∧
    ∃ t, step { State.reset with hostIn := [.write 0x008 1] } = .next t := by
  refine ⟨?_, _, rfl⟩
  constructor <;> simp [State.reset, State.powerOn, memory_nil_ok, Assoc.wf]
  constructor <;> decide

/-- A BOOT.NKS that completes, with both keys replaced. -/
theorem witness_OnlyKeyInstructionsReadKeys :
    (some (⟨2, [false, false]⟩ : KeyL)).isSome = demo.keyL.isSome ∧
    (some (⟨4, 1, [[false, false, false, false]]⟩ : KeyR)).isSome = demo.keyR.isSome ∧
    writesKeyL (.pAdd 4 1 2) = false ∧ writesKeyR (.pAdd 4 1 2) = false ∧ readsKeyL (.pAdd 4 1 2) = false ∧
    readsKeyR (.pAdd 4 1 2) = false ∧ ∃ t, exec (.pAdd 4 1 2) demo = .next t := ⟨by decide +kernel, by decide +kernel, rfl, rfl, rfl, rfl, _, rfl⟩

/-- Each combination of the two bits, RUNNING and not. -/
theorem witness_HostControlWrites :
    (2 : Word).getLsbD 1 = true ∧
    (1 : Word).getLsbD 1 = false ∧ (1 : Word).getLsbD 0 = true ∧
    State.reset.runState ≠ .running ∧
    demo.runState = .running ∧
    (0 : Word).getLsbD 1 = false ∧ (0 : Word).getLsbD 0 = false := by decide +kernel

/-- RUNNING, at the first offset past the register block; each register's offset, not aligned where one is; and the last of the block. -/
theorem witness_WindowsRefusedWhileRunning :
    demo.runState = .running ∧
    0x1000 ≤ (0x1000 : Word).toNat ∧
    0x00C = (0x00F : Word).toNat / 4 * 4 ∧
    0xFFC = (0xFFF : Word).toNat / 4 * 4 ∧ 0xFFC < 0x1000 ∧ 0xFFC ∉ [0x008, 0x00C, 0x010, 0x014] ∧
    (0x100 : Word).getLsbD 8 = true := by decide +kernel

/-- The last word of each memory, CSRs on both sides of the read-write limit and the last, and the first offset past each window. -/
theorem witness_HostMemoryAccess :
    State.reset.params.Ok ∧ State.reset.runState ≠ .running ∧
    (0x10000000 + 0x0FFFFFFC = (0x1FFFFFFF : Word).toNat / 4 * 4 ∧ 0x0FFFFFFC < State.reset.params.dmemSize) ∧
    (0x01000000 + 0xFFFC = (0x0100FFFC : Word).toNat / 4 * 4 ∧ 0xFFFC < State.reset.params.imemSize) ∧
    (0x1000 + 4 * 9 = (0x1024 : Word).toNat / 4 * 4 ∧ 0x1000 + 4 * 10 = (0x1028 : Word).toNat / 4 * 4 ∧
      0x1000 + 4 * 0xFFF = (0x4FFC : Word).toNat / 4 * 4 ∧ 0xFFF < 0x1000) ∧
    (0x5000 ≤ (0x5000 : Word).toNat / 4 * 4 ∧ 0x01000000 + State.reset.params.imemSize ≤ (0x01010000 : Word).toNat / 4 * 4 ∧
      0x10000000 + State.reset.params.dmemSize ≤ (0x20000000 : Word).toNat / 4 * 4) := ⟨by constructor <;> decide, by decide +kernel⟩

end Sys2Proof.Tests
end

section
/-! PROOF of O52, the frame of every instruction (R15, R42, R102, R104, R524). First one rule for each state
operation: a write to a destination the instruction names keeps its frame. Then one rule for each check: it
faults, and then nothing is claimed, or goes on. Each instruction's proof follows its meaning with these rules. -/

namespace Sys2Proof.Machine

/-! ### The frame under the state operations -/

section
variable {i : Instr} {s t : State}

/-- A write to the destination leaves every entry of the file that is not the destination. -/
theorem vector_get_set_of_not_dest {α : Type} {n : Nat} {dest : Option (Fin n)} {d j : Fin n} (v : Vector α n)
    (hd : dest = some d) (hj : dest ≠ some j) (x : α) : (v.set d x)[j] = v[j] := by
  rw [vector_get_set, if_neg]
  rintro rfl
  exact hj hd

theorem Frame.refl (i : Instr) (s : State) (hc : destCsr i = none) : Frame i s s where
  params := rfl
  sRegs _ _ := rfl
  pRegs _ _ := rfl
  fRegs _ _ := rfl
  lRegs _ _ := rfl
  rRegs _ _ := rfl
  bk _ _ := rfl
  keyL _ := rfl
  keyR _ := rfl
  csr _ := rfl
  csrOne c h := by simp [hc] at h
  runState _ := ⟨rfl, rfl⟩
  fault := ⟨rfl, rfl, rfl⟩
  host := ⟨rfl, rfl, rfl, rfl⟩
  imem := rfl
  dmem _ _ := rfl
  draws := Nat.le_refl _

/-- R32, R202: a write to S0 is discarded, so it keeps the frame too. -/
theorem Frame.setS (h : Frame i s t) {d : SIdx} (hd : destS i = some d) (v : Word) : Frame i s (t.setS d v) := by
  unfold State.setS
  split
  · exact h
  · exact { h with sRegs := fun j hj => (vector_get_set_of_not_dest _ hd hj _).trans (h.sRegs j hj) }

theorem Frame.setP (h : Frame i s t) {d : PIdx} (hd : destP i s d = true) (c : List Word) :
    Frame i s (t.setP d c) :=
  { h with
    pRegs := fun j hj => by
      have hne : j ≠ d := by rintro rfl; simp [hd] at hj
      rw [State.setP_pRegs, vector_get_set, if_neg hne, h.pRegs j hj] }

theorem Frame.setF (h : Frame i s t) {d : FIdx} (hd : destF i = some d) (v : List Int) (cls : ErrClass) :
    Frame i s (t.setF d v cls) :=
  { h with fRegs := fun j hj => (vector_get_set_of_not_dest _ hd hj _).trans (h.fRegs j hj) }

theorem Frame.setL (h : Frame i s t) {d : LIdx} (hd : destL i = some d) (x : LReg) : Frame i s (t.setL d x) :=
  { h with lRegs := fun j hj => (vector_get_set_of_not_dest _ hd hj _).trans (h.lRegs j hj) }

theorem Frame.setR (h : Frame i s t) {d : RIdx} (hd : destR i = some d) (x : Rlwe) : Frame i s (t.setR d x) :=
  { h with rRegs := fun j hj => (vector_get_set_of_not_dest _ hd hj _).trans (h.rRegs j hj) }

theorem Frame.setBk (h : Frame i s t) {slot : Nat} (hd : destSlot i s = some slot) (rows : List Rlwe) :
    Frame i s (t.setBk slot rows) :=
  { h with
    bk := fun j hj => by
      have hne : j ≠ slot := by rintro rfl; exact hj hd
      rw [getBk_setBk, if_neg hne, h.bk j hj] }

/-- R440: a run of P writes keeps the frame when every register of the run is a destination. -/
theorem Frame.setPs (cs : List (List Word)) (h : Frame i s t) {d : Nat}
    (hd : ∀ j : PIdx, d ≤ j.val → j.val < d + cs.length → destP i s j = true) : Frame i s (t.setPs d cs) := by
  induction cs generalizing t d with
  | nil => exact h
  | cons c cs ih =>
    unfold State.setPs
    split
    · rename_i h16
      have hfirst : destP i s ⟨d, h16⟩ = true := hd _ (Nat.le_refl d) (by simp)
      refine ih (h.setP hfirst c) fun j hj hj' => hd j (by omega) ?_
      simp only [List.length_cons]; omega
    · exact h

theorem Frame.setKeyL (h : Frame i s t) (hw : writesKeyL i = true) (bits : List Bool) :
    Frame i s (t.setKeyL bits) :=
  { h with keyL := fun hn => by simp [hw] at hn }

theorem Frame.setKeyR (h : Frame i s t) (hw : writesKeyR i = true) (polys : List (List Bool)) :
    Frame i s (t.setKeyR polys) :=
  { h with keyR := fun hn => by simp [hw] at hn }

/-- R104: a store inside the instruction's bytes leaves every other byte of DMEM. -/
theorem Frame.store (h : Frame i s t) (len : Nat) {addr : Nat} {ws : List Word}
    (hb : storedBytes i s = some (addr, len)) (hlen : len = 4 * ws.length) : Frame i s (t.store addr ws) :=
  { h with
    dmem := fun b hout => by
      have hb' : b < addr ∨ addr + 4 * ws.length ≤ b := hlen ▸ hout addr len hb
      rw [State.store_dmem, memByte_storeWords_of_outside _ _ _ _ hb', h.dmem b hout] }

theorem Frame.draw (h : Frame i s t) {n : Nat} (hn : t.drawCtr ≤ n) : Frame i s { t with drawCtr := n } :=
  { h with draws := h.draws.trans hn }

theorem Frame.bump (h : Frame i s t) (n : Nat) : Frame i s (t.bump n) := h.draw (Nat.le_add_right _ n)

theorem Frame.afterLoad (h : Frame i s t) (ea : Word) (cnt : Nat) : Frame i s (t.afterLoad ea cnt) :=
  h.draw (loadWords_le ..)

theorem Frame.advance (h : Frame i s t) : Frame i s t.advance := { h with }

theorem Frame.jump (h : Frame i s t) (target : Word) : Frame i s (t.jump target) := { h with }

end

theorem Frame.halt (s : State) : Frame .halt s s.halt :=
  { Frame.refl .halt s rfl with runState := fun h => absurd rfl h }

/-- R213: NOP's frame but for the one CSR. -/
theorem Frame.setCsr (a : SIdx) (c : Nat) (s : State) (v : Word) : Frame (.csrw a c) s (s.setCsr c v) :=
  { Frame.refl .nop s rfl with
    csr := fun h => by simp [destCsr] at h
    csrOne := fun c' h => by
      obtain rfl : c = c' := Option.some.inj h
      exact ⟨v, rfl⟩
    runState := fun _ => ⟨rfl, rfl⟩ }

/-! ### Checks and outcomes -/

/-- What the statement asks of an outcome: the frame, if the instruction did not fault. -/
def FrameUnlessFaulted (i : Instr) (s t : State) : Prop := t.runState ≠ .faulted → Frame i s t

section
variable {i : Instr} {s t : State}

theorem frameUnlessFaulted_takeFault (x : Exc) : FrameUnlessFaulted i s (t.takeFault x) := fun h => absurd rfl h

theorem next_frame (h : Frame i s t) : Answers (.next t) (FrameUnlessFaulted i s) := (next_answers t).mpr fun _ => h

/-- R203: an instruction completes by advancing pc. -/
theorem done_frame (h : Frame i s t) : Answers (done t) (FrameUnlessFaulted i s) := next_frame h.advance

section
variable {k : Unit → Result} (h : Answers (k ()) (FrameUnlessFaulted i s))
include h

/-- R15: a check faults or goes on. The named checks below are this one, some of them twice. -/
theorem need_frame {c : Bool} {x : Exc} : Answers (need s c x k) (FrameUnlessFaulted i s) :=
  (need_answers c x k).mpr ⟨fun _ => h, fun _ => frameUnlessFaulted_takeFault x⟩

theorem needN_frame : Answers (needN s k) (FrameUnlessFaulted i s) := need_frame h

theorem needRing_frame : Answers (needRing s k) (FrameUnlessFaulted i s) := need_frame (need_frame h)

theorem needLwe_frame : Answers (needLwe s k) (FrameUnlessFaulted i s) := need_frame h

theorem needGad_frame : Answers (needGad s k) (FrameUnlessFaulted i s) := need_frame h

theorem needKs_frame : Answers (needKs s k) (FrameUnlessFaulted i s) := need_frame h

theorem needModulus_frame {m : Word} : Answers (needModulus s m k) (FrameUnlessFaulted i s) := need_frame h

theorem needBelow_frame {v : Word} {lim : Nat} : Answers (needBelow s v lim k) (FrameUnlessFaulted i s) :=
  need_frame h

theorem tagP_frame {a : PIdx} {x : PReg} : Answers (tagP s a x k) (FrameUnlessFaulted i s) := need_frame h

theorem tagF_frame {a : FIdx} {x : FReg} : Answers (tagF s a x k) (FrameUnlessFaulted i s) := need_frame h

theorem tagL_frame {a : LIdx} {x : LReg} {d : Nat} : Answers (tagL s a x d k) (FrameUnlessFaulted i s) :=
  need_frame h

theorem tagR_frame {a : RIdx} {x : RReg} : Answers (tagR s a x k) (FrameUnlessFaulted i s) := need_frame h

theorem tagKey_frame {sel : KeySel} {fits : Bool} : Answers (tagKey s sel fits k) (FrameUnlessFaulted i s) :=
  need_frame h

theorem needSel_frame {sel : KeySel} : Answers (needSel s sel k) (FrameUnlessFaulted i s) := by
  cases sel with
  | lwe => exact needLwe_frame h
  | ext => exact needRing_frame h

theorem needSpan_frame {ea : Word} {bytes : Nat} : Answers (needSpan s ea bytes k) (FrameUnlessFaulted i s) :=
  need_frame (need_frame h)

theorem needKsk_frame : Answers (needKsk s k) (FrameUnlessFaulted i s) := needSpan_frame h

/-- R115: the fault of a bad key word is taken after the load's draws. -/
theorem needKeyWords_frame {w : List Word} : Answers (needKeyWords t w k) (FrameUnlessFaulted i s) :=
  (needKeyWords_answers t w k).mpr ⟨fun _ => h, fun _ _ => frameUnlessFaulted_takeFault _⟩

end

theorem withS_frame {a : SIdx} {k : Word → Result}
    (h : ∀ v, s.getS a = some v → Answers (k v) (FrameUnlessFaulted i s)) :
    Answers (withS s a k) (FrameUnlessFaulted i s) :=
  (withS_answers a k).mpr ⟨h, fun _ => frameUnlessFaulted_takeFault _⟩

theorem withP_frame {a : PIdx} {k : PReg → Result} (h : ∀ x, Answers (k x) (FrameUnlessFaulted i s)) :
    Answers (withP s a k) (FrameUnlessFaulted i s) :=
  (withP_answers a k).mpr ⟨fun x _ => h x, fun _ => frameUnlessFaulted_takeFault _⟩

theorem withF_frame {a : FIdx} {k : FReg → Result} (h : ∀ x, Answers (k x) (FrameUnlessFaulted i s)) :
    Answers (withF s a k) (FrameUnlessFaulted i s) :=
  (withF_answers a k).mpr ⟨fun x _ => h x, fun _ => frameUnlessFaulted_takeFault _⟩

theorem withL_frame {a : LIdx} {k : LReg → Result}
    (h : ∀ x, s.lRegs[a] = some x → Answers (k x) (FrameUnlessFaulted i s)) :
    Answers (withL s a k) (FrameUnlessFaulted i s) :=
  (withL_answers a k).mpr ⟨h, fun _ => frameUnlessFaulted_takeFault _⟩

theorem withR_frame {a : RIdx} {k : RReg → Result} (h : ∀ x, Answers (k x) (FrameUnlessFaulted i s)) :
    Answers (withR s a k) (FrameUnlessFaulted i s) :=
  (withR_answers a k).mpr ⟨fun x _ => h x, fun _ => frameUnlessFaulted_takeFault _⟩

theorem withKey_frame {sel : KeySel} {k : List Bool → Bool → Result}
    (h : ∀ bits fits, Answers (k bits fits) (FrameUnlessFaulted i s)) :
    Answers (withKey s sel k) (FrameUnlessFaulted i s) :=
  (withKey_answers sel k).mpr ⟨fun bits fits _ => h bits fits, fun _ => frameUnlessFaulted_takeFault _⟩

theorem withKeyR_frame {k : KeyR → Result} (h : ∀ x, Answers (k x) (FrameUnlessFaulted i s)) :
    Answers (withKeyR s k) (FrameUnlessFaulted i s) :=
  (withKeyR_answers k).mpr ⟨fun x _ _ _ => h x, fun _ _ _ => frameUnlessFaulted_takeFault _,
    fun _ => frameUnlessFaulted_takeFault _⟩

theorem withSlot_frame {slot : Nat} {k : Rgsw → Result} (h : ∀ g, Answers (k g) (FrameUnlessFaulted i s)) :
    Answers (withSlot s slot k) (FrameUnlessFaulted i s) :=
  (withSlot_answers slot k).mpr ⟨fun g _ _ => h g, fun _ _ _ => frameUnlessFaulted_takeFault _,
    fun _ => frameUnlessFaulted_takeFault _⟩

theorem needBoot_frame {ks : Bool} {a : LIdx} {b : SIdx} {k : LReg → Word → Result}
    (h : ∀ c mu, Answers (k c mu) (FrameUnlessFaulted i s)) :
    Answers (needBoot s ks a b k) (FrameUnlessFaulted i s) :=
  needBoot_answers ks a b k (fun c mu _ _ _ _ _ _ _ _ _ => h c mu) fun _ _ => frameUnlessFaulted_takeFault _

/-! ### The shapes that several instructions share

`hc` leaves CSRW out: it is the one instruction whose frame `Frame.refl` does not start. -/

variable (hc : destCsr i = none)
include hc

theorem scalarBin_frame {f : Word → Word → Word} {d a b : SIdx} (hd : destS i = some d) :
    Answers (scalarBin f d a b s) (FrameUnlessFaulted i s) :=
  withS_frame fun _ _ => withS_frame fun _ _ => done_frame ((Frame.refl i s hc).setS hd _)

theorem branch_frame {cond : Word → Word → Bool} {a b : SIdx} {imm : Word} :
    Answers (branch cond a b imm s) (FrameUnlessFaulted i s) := by
  refine withS_frame fun x _ => withS_frame fun y _ => ?_
  split
  · exact next_frame ((Frame.refl i s hc).jump _)
  · exact done_frame (Frame.refl i s hc)

theorem polyBin_frame {f : Word → Word → Word} {d a b : PIdx} (hd : destP i s d = true) :
    Answers (polyBin f d a b s) (FrameUnlessFaulted i s) :=
  needN_frame <| withP_frame fun _ => withP_frame fun _ => tagP_frame <| tagP_frame <|
    done_frame ((Frame.refl i s hc).setP hd _)

theorem polyMono_frame {f : Nat → List Word → List Word} {d a : PIdx} {b : SIdx} (hd : destP i s d = true) :
    Answers (polyMono f d a b s) (FrameUnlessFaulted i s) :=
  needN_frame <| withP_frame fun _ => withS_frame fun _ _ => tagP_frame <| needBelow_frame <|
    done_frame ((Frame.refl i s hc).setP hd _)

theorem forward_frame {cls : List Int → ErrClass} {d : FIdx} {a : PIdx} (hd : destF i = some d) :
    Answers (forward cls d a s) (FrameUnlessFaulted i s) :=
  needN_frame <| withP_frame fun _ => tagP_frame <| done_frame ((Frame.refl i s hc).setF hd _ _)

theorem lweEnc_frame {sel : KeySel} {d : LIdx} {a : SIdx} (hd : destL i = some d) :
    Answers (lweEnc sel d a s) (FrameUnlessFaulted i s) :=
  needSel_frame <| withS_frame fun _ _ => withKey_frame fun _ _ => tagKey_frame <|
    done_frame (((Frame.refl i s hc).setL hd _).bump _)

theorem lweDec_frame {sel : KeySel} {d : SIdx} {a : LIdx} {b : SIdx} (hd : destS i = some d) :
    Answers (lweDec sel d a b s) (FrameUnlessFaulted i s) :=
  needSel_frame <| withL_frame fun _ _ => withS_frame fun _ _ => withKey_frame fun _ _ => tagL_frame <|
    tagKey_frame <| needModulus_frame <| done_frame ((Frame.refl i s hc).setS hd _)

theorem lwePhase_frame {sel : KeySel} {d : SIdx} {a : LIdx} (hd : destS i = some d) :
    Answers (lwePhase sel d a s) (FrameUnlessFaulted i s) :=
  needSel_frame <| withL_frame fun _ _ => withKey_frame fun _ _ => tagL_frame <| tagKey_frame <|
    done_frame ((Frame.refl i s hc).setS hd _)

theorem lweTriv_frame {sel : KeySel} {d : LIdx} {a : SIdx} (hd : destL i = some d) :
    Answers (lweTriv sel d a s) (FrameUnlessFaulted i s) :=
  needSel_frame <| withS_frame fun _ _ => done_frame ((Frame.refl i s hc).setL hd _)

theorem lweAcc_frame {f : LReg → LReg → LReg} {d a : LIdx} (hd : destL i = some d) :
    Answers (lweAcc f d a s) (FrameUnlessFaulted i s) :=
  withL_frame fun _ _ => withL_frame fun _ _ => tagL_frame <| done_frame ((Frame.refl i s hc).setL hd _)

theorem lweAccMul_frame {f : Word → LReg → LReg → LReg} {d a : LIdx} {b : SIdx} (hd : destL i = some d) :
    Answers (lweAccMul f d a b s) (FrameUnlessFaulted i s) :=
  withL_frame fun _ _ => withS_frame fun _ _ => withL_frame fun _ _ => tagL_frame <|
    done_frame ((Frame.refl i s hc).setL hd _)

theorem lweLoad_frame {sel : KeySel} {d : LIdx} {a : SIdx} {imm : Word} (hd : destL i = some d) :
    Answers (lweLoad sel d a imm s) (FrameUnlessFaulted i s) :=
  needSel_frame <| withS_frame fun _ _ => needSpan_frame <|
    done_frame (((Frame.refl i s hc).afterLoad _ _).setL hd _)

theorem rlweAcc_frame {f : Word → Word → Word} {d a : RIdx} (hd : destR i = some d) :
    Answers (rlweAcc f d a s) (FrameUnlessFaulted i s) :=
  needRing_frame <| withR_frame fun _ => withR_frame fun _ => tagR_frame <| tagR_frame <|
    done_frame ((Frame.refl i s hc).setR hd _)

end

/-! ### The instructions with a meaning of their own -/

section
variable {s : State}

theorem execCsrr_frame (d : SIdx) (c : Nat) : Answers (execCsrr d c s) (FrameUnlessFaulted (.csrr d c) s) := by
  unfold execCsrr
  cases csrRead s c with
  | none => exact (raise_answers ..).mpr (frameUnlessFaulted_takeFault _)
  | some v => exact done_frame ((Frame.refl _ s rfl).setS rfl v)

/-- R440: the run P[d] to P[d + l − 1]. -/
theorem execGDecomp_frame (d a : PIdx) : Answers (execGDecomp d a s) (FrameUnlessFaulted (.gDecomp d a) s) := by
  refine needN_frame <| needGad_frame <| withP_frame fun x => tagP_frame <| need_frame <|
    done_frame ((Frame.refl _ s rfl).setPs _ fun j hlo hhi => ?_)
  have hlen : (decWords s.ringN s.gadL s.gadBits x.c).length = s.gadL := vec_length ..
  rw [hlen] at hhi
  simp [destP, hlo, hhi]

/-- R441: the slot is the value of S[a]. -/
theorem execGEnc_frame (a b : SIdx) : Answers (execGEnc a b s) (FrameUnlessFaulted (.gEnc a b) s) := by
  refine needRing_frame <| needGad_frame <| withS_frame fun slot hslot => withS_frame fun m _ =>
    withKeyR_frame fun key => needBelow_frame <| done_frame (((Frame.refl _ s rfl).setBk ?_ _).bump _)
  simp [destSlot, hslot]

/-- R442: the slot is the value of S[d]. -/
theorem execGLd_frame (d a : SIdx) (imm : Word) :
    Answers (execGLd d a imm s) (FrameUnlessFaulted (.gLd d a imm) s) := by
  refine needRing_frame <| needGad_frame <| withS_frame fun base _ => withS_frame fun slot hslot =>
    needBelow_frame <| needSpan_frame <| done_frame (((Frame.refl _ s rfl).afterLoad _ _).setBk ?_ _)
  simp [destSlot, hslot]

theorem execSSw_frame (d a : SIdx) (imm : Word) :
    Answers (execSSw d a imm s) (FrameUnlessFaulted (.sSw d a imm) s) := by
  refine withS_frame fun base hbase => withS_frame fun v _ => needSpan_frame <|
    done_frame ((Frame.refl _ s rfl).store 4 ?_ rfl)
  simp [storedBytes, hbase]

theorem execPSt_frame (d : PIdx) (a : SIdx) (imm : Word) :
    Answers (execPSt d a imm s) (FrameUnlessFaulted (.pSt d a imm) s) := by
  refine needN_frame <| withS_frame fun base hbase => withP_frame fun x => tagP_frame <| needSpan_frame <|
    done_frame ((Frame.refl _ s rfl).store (4 * s.ringN) ?_ ?_)
  · simp [storedBytes, hbase]
  · rw [vec_length]

/-- R111: the register's own dimension sets the size. -/
theorem execLSt_frame (d : LIdx) (a : SIdx) (imm : Word) :
    Answers (execLSt d a imm s) (FrameUnlessFaulted (.lSt d a imm) s) := by
  refine withS_frame fun base hbase => withL_frame fun x hx => needSpan_frame <|
    done_frame ((Frame.refl _ s rfl).store (lStride x.dim) ?_ ?_)
  · simp only [storedBytes, hbase, hx]
  · simp only [lStride, LReg.toWords, List.length_append, vec_length, List.length_cons, List.length_nil]; ring

theorem execRSt_frame (d : RIdx) (a : SIdx) (imm : Word) :
    Answers (execRSt d a imm s) (FrameUnlessFaulted (.rSt d a imm) s) := by
  refine needRing_frame <| withS_frame fun base hbase => withR_frame fun x => tagR_frame <| needSpan_frame <|
    done_frame ((Frame.refl _ s rfl).store (rStride s.ringN s.rankK) ?_ ?_)
  · simp [storedBytes, hbase]
  · simp only [rStride, Rlwe.toWords, List.length_append, vec_length, List.length_cons, List.length_nil]; ring

/-- Every instruction keeps its frame or faults: its checks in order, then its writes. -/
theorem exec_frame (i : Instr) (s : State) : Answers (exec i s) (FrameUnlessFaulted i s) := by
  have start (hc : destCsr i = none) : Frame i s s := Frame.refl i s hc
  unfold exec
  cases i with
  -- system, scalar and control (40_sequencer.md)
  | nop => exact done_frame (start rfl)
  | halt => exact next_frame (Frame.halt s)
  | csrr d c => exact execCsrr_frame d c
  | csrw a c => exact need_frame <| withS_frame fun v _ => done_frame (Frame.setCsr a c s v)
  | sLi => exact done_frame ((start rfl).setS rfl _)
  | sAddi => exact withS_frame fun _ _ => done_frame ((start rfl).setS rfl _)
  | sAdd | sSub | sMul | sAnd | sSll | sSrl => exact scalarBin_frame rfl rfl
  | sLw => exact withS_frame fun _ _ => needSpan_frame <| done_frame (((start rfl).afterLoad _ _).setS rfl _)
  | sSw d a imm => exact execSSw_frame d a imm
  | beq | bne | blt | bltu => exact branch_frame rfl
  | jmp => exact next_frame ((start rfl).jump _)
  | jal => exact next_frame (((start rfl).setS rfl _).jump _)
  | jr => exact withS_frame fun _ _ => next_frame ((start rfl).jump _)
  -- torus scalar (41_torus.md)
  | mswF | aphase =>
    exact withS_frame fun _ _ => withS_frame fun _ _ => needModulus_frame <| done_frame ((start rfl).setS rfl _)
  | mswT =>
    exact withS_frame fun _ _ => withS_frame fun _ _ => needModulus_frame <| needBelow_frame <|
      done_frame ((start rfl).setS rfl _)
  | gauss => exact withS_frame fun _ _ => done_frame (((start rfl).setS rfl _).bump 1)
  -- polynomial ring (42_polynomial.md)
  | pClr d => exact needN_frame <| done_frame ((start rfl).setP (beq_self_eq_true d) _)
  | pAdd d | pSub d => exact polyBin_frame rfl (beq_self_eq_true d)
  | pAddmulz d =>
    exact needN_frame <| withP_frame fun _ => withS_frame fun _ _ => withP_frame fun _ => tagP_frame <|
      tagP_frame <| done_frame ((start rfl).setP (beq_self_eq_true d) _)
  | pMulxai d | pMulxaim1 d => exact polyMono_frame rfl (beq_self_eq_true d)
  | pMulfft d =>
    exact needN_frame <| withP_frame fun _ => withP_frame fun _ => tagP_frame <| tagP_frame <|
      done_frame (((start rfl).setP (beq_self_eq_true d) _).bump _)
  | pLd d =>
    exact needN_frame <| withS_frame fun _ _ => needSpan_frame <|
      done_frame (((start rfl).afterLoad _ _).setP (beq_self_eq_true d) _)
  | pSt d a imm => exact execPSt_frame d a imm
  -- FFT engine (43_fft.md)
  | fClr => exact needN_frame <| done_frame ((start rfl).setF rfl _ _)
  | fFwdi | fFwdt => exact forward_frame rfl rfl
  | fInv d =>
    exact needN_frame <| withF_frame fun _ => tagF_frame <|
      done_frame (((start rfl).setP (beq_self_eq_true d) _).bump _)
  | fMuladd =>
    exact needN_frame <| withF_frame fun _ => withF_frame fun _ => withF_frame fun _ => tagF_frame <|
      tagF_frame <| tagF_frame <| done_frame ((start rfl).setF rfl _ _)
  | fMono => exact needN_frame <| withS_frame fun _ _ => needBelow_frame <| done_frame ((start rfl).setF rfl _ _)
  -- LWE (44_lwe.md)
  | lEnc | lEncX => exact lweEnc_frame rfl rfl
  | lDec | lDecX => exact lweDec_frame rfl rfl
  | lPhase | lPhaseX => exact lwePhase_frame rfl rfl
  | lTriv | lTrivX => exact lweTriv_frame rfl rfl
  | lAdd | lSub => exact lweAcc_frame rfl rfl
  | lAddmul | lSubmul => exact lweAccMul_frame rfl rfl
  | lNeg | lCopy => exact withL_frame fun _ _ => done_frame ((start rfl).setL rfl _)
  | lLd | lLdX => exact lweLoad_frame rfl rfl
  | lSt d a imm => exact execLSt_frame d a imm
  | keyLdl =>
    exact needLwe_frame <| withS_frame fun _ _ => needSpan_frame <| needKeyWords_frame <|
      done_frame (((start rfl).afterLoad _ _).setKeyL rfl _)
  -- RLWE (45_rlwe.md)
  | rEnc0 => exact needRing_frame <| withKeyR_frame fun _ => done_frame (((start rfl).setR rfl _).bump _)
  | rEnc =>
    exact needRing_frame <| withP_frame fun _ => tagP_frame <| withKeyR_frame fun _ =>
      done_frame (((start rfl).setR rfl _).bump _)
  | rPhase d =>
    exact needRing_frame <| withR_frame fun _ => tagR_frame <| withKeyR_frame fun _ =>
      done_frame ((start rfl).setP (beq_self_eq_true d) _)
  | rTriv => exact needRing_frame <| withP_frame fun _ => tagP_frame <| done_frame ((start rfl).setR rfl _)
  | rAdd | rSub => exact rlweAcc_frame rfl rfl
  | rAddmulr =>
    exact needRing_frame <| withP_frame fun _ => withR_frame fun _ => withR_frame fun _ => tagP_frame <|
      tagR_frame <| tagR_frame <| done_frame (((start rfl).setR rfl _).bump _)
  | rMulxaim1 =>
    exact needRing_frame <| withR_frame fun _ => withS_frame fun _ _ => tagR_frame <| needBelow_frame <|
      done_frame (((start rfl).setR rfl _).bump 1)
  | rExtract =>
    exact needRing_frame <| withR_frame fun _ => withS_frame fun _ _ => tagR_frame <| needBelow_frame <|
      done_frame ((start rfl).setL rfl _)
  | rLd =>
    exact needRing_frame <| withS_frame fun _ _ => needSpan_frame <|
      done_frame (((start rfl).afterLoad _ _).setR rfl _)
  | rSt d a imm => exact execRSt_frame d a imm
  | keyLdr =>
    exact needRing_frame <| withS_frame fun _ _ => needSpan_frame <| needKeyWords_frame <|
      done_frame (((start rfl).afterLoad _ _).setKeyR rfl _)
  -- RGSW (46_rgsw.md)
  | gDecomp d a => exact execGDecomp_frame d a
  | gEnc a b => exact execGEnc_frame a b
  | gLd d a imm => exact execGLd_frame d a imm
  | gExtprod =>
    exact needRing_frame <| needGad_frame <| withR_frame fun _ => withS_frame fun _ _ => tagR_frame <|
      needBelow_frame <| withSlot_frame fun _ => done_frame (((start rfl).setR rfl _).bump _)
  -- key switching and bootstrapping (47_keyswitch.md, 48_bootstrap.md)
  | ks =>
    exact needRing_frame <| needLwe_frame <| needKs_frame <| withL_frame fun _ _ => tagL_frame <| needKsk_frame <|
      done_frame (((start rfl).setL rfl _).draw (keySwitch_le ..))
  | brRot =>
    exact needBoot_frame fun _ _ => done_frame (((start rfl).setR rfl _).draw (blindRotate_le ..))
  | bootNks =>
    exact needBoot_frame fun _ _ => done_frame (((start rfl).setL rfl _).draw (blindRotate_le ..))
  | boot =>
    exact needBoot_frame fun _ _ => needKsk_frame <|
      done_frame (((start rfl).setL rfl _).draw ((blindRotate_le ..).trans (keySwitch_le ..)))

end

/-- Settles O52: the frame of every outcome, applied to the outcome that is no fault. -/
theorem instructionsWriteOnlyTheirDestinations : Obligations.InstructionsWriteOnlyTheirDestinations := by
  unfold Obligations.InstructionsWriteOnlyTheirDestinations
  intro i s t _ ht hok
  exact (exec_frame i s).of_eq ht hok

end Sys2Proof.Machine
end

section
/-! PROOF of O54 and O55, the invariant State.Wf (R32 to R40, R62, R65, R71, R75). First one rule for each state
operation: it keeps the invariant when what it writes is in order. Then one rule for each check of a meaning,
for any property that every fault of the CORE has: the check faults, and then the property holds, or goes on with
what it has checked. Then the values that instructions write are in order, and the step is assembled. -/

namespace Sys2Proof.Machine

/-! ### Reset -/

/-- R75: after power-on every register is invalid, so only the sizes and S0 are left to check. -/
theorem State.powerOn_wf {p : Params} (h : p.Ok) : (State.powerOn p).Wf where
  params := h
  s0 := rfl
  pOk i x hx := by simp [State.powerOn] at hx
  fOk i x hx := by simp [State.powerOn] at hx
  lOk i x hx := by simp [State.powerOn] at hx
  rOk i x hx := by simp [State.powerOn] at hx
  bkCanonical := List.Pairwise.nil
  bkInRange _ he := absurd he List.not_mem_nil
  bkOk _ he := absurd he List.not_mem_nil
  keyLOk _ hx := by simp [State.powerOn] at hx
  keyROk _ hx := by simp [State.powerOn] at hx
  imemOk := memory_nil_ok _
  dmemOk := memory_nil_ok _
  faulted := by simp [State.powerOn]
  noFault _ := ⟨rfl, rfl⟩
  pending hp := by simp [State.powerOn] at hp

/-- R9: the default sizes are legal. -/
theorem Params.default_ok : Params.default.Ok := by constructor <;> decide

/-- Settles O54. -/
theorem powerOnStateIsWellFormed : Obligations.PowerOnStateIsWellFormed :=
  ⟨fun _ h => State.powerOn_wf h, State.powerOn_wf Params.default_ok⟩

/-! ### The invariant under the state operations -/

/-- Writing an entry in order keeps a register file in order. -/
theorem vector_set_forall {α : Type} {n : Nat} {P : α → Prop} {v : Vector (Option α) n}
    (hv : ∀ (j : Fin n) x, v[j] = some x → P x) (d : Fin n) {y : α} (hy : P y) :
    ∀ (j : Fin n) x, (v.set d (some y))[j] = some x → P x := by
  intro j x hx
  rw [vector_get_set] at hx
  split at hx
  · exact Option.some.inj hx ▸ hy
  · exact hv j x hx

section
variable {s : State} (h : s.Wf)
include h

/-- R32, R202: S0 is never written. -/
theorem State.Wf.setS (d : SIdx) (v : Word) : (s.setS d v).Wf := by
  unfold State.setS
  split
  · exact h
  · rename_i hd
    refine { h with s0 := ?_ }
    have h0 : (0 : SIdx) ≠ d := fun e => hd e.symm
    exact (vector_get_set s.sRegs d 0 (some v)).trans ((if_neg h0).trans h.s0)

theorem State.Wf.setP (d : PIdx) {c : List Word} (hdeg : degreeOk s.ringN) (hlen : c.length = s.ringN) :
    (s.setP d c).Wf :=
  { h with pOk := vector_set_forall h.pOk d ⟨hdeg, hlen⟩ }

theorem State.Wf.setF (d : FIdx) {v : List Int} {cls : ErrClass} (hdeg : degreeOk s.ringN)
    (hlen : v.length = s.ringN) (hcls : cls.Ok v) : (s.setF d v cls).Wf :=
  { h with fOk := vector_set_forall h.fOk d ⟨hdeg, hlen, hcls⟩ }

theorem State.Wf.setL (d : LIdx) {x : LReg} (hx : x.Ok) : (s.setL d x).Wf :=
  { h with lOk := vector_set_forall h.lOk d hx }

theorem State.Wf.setR (d : RIdx) {x : Rlwe} (hdeg : degreeOk s.ringN) (hrank : rankOk s.rankK)
    (hx : x.Ok s.ringN s.rankK) : (s.setR d x).Wf :=
  { h with rOk := vector_set_forall h.rOk d ⟨hdeg, hrank, hx⟩ }

/-- R441, R442: the slot written is the only new entry of the store. -/
theorem State.Wf.setBk {slot : Nat} {rows : List Rlwe} (hslot : slot < s.params.bkSlots)
    (hg : Rgsw.Ok ⟨s.ringN, s.rankK, s.gadL, s.gadBits, rows⟩) : (s.setBk slot rows).Wf :=
  { h with
    bkCanonical := assocSet_wf h.bkCanonical slot _
    bkInRange := fun e he => by
      rcases mem_assocSet he with rfl | he
      · exact hslot
      · exact h.bkInRange e he
    bkOk := fun e he => by
      rcases mem_assocSet he with rfl | he
      · exact hg
      · exact h.bkOk e he }

theorem State.Wf.setKeyL {bits : List Bool} (hk : KeyL.Ok ⟨s.lweN, bits⟩) : (s.setKeyL bits).Wf :=
  { h with keyLOk := fun _ hx => Option.some.inj hx ▸ hk }

theorem State.Wf.setKeyR {polys : List (List Bool)} (hk : KeyR.Ok ⟨s.ringN, s.rankK, polys⟩) :
    (s.setKeyR polys).Wf :=
  { h with keyROk := fun _ hx => Option.some.inj hx ▸ hk }

/-- The invariant asks nothing of the CSRs: a register keeps the tags it was written with (R34). -/
theorem State.Wf.setCsr (c : Nat) (v : Word) : (s.setCsr c v).Wf := { h with }

theorem State.Wf.store {addr : Nat} {ws : List Word} (hal : addr % 4 = 0)
    (hin : addr + 4 * ws.length ≤ s.params.dmemSize) : (s.store addr ws).Wf :=
  { h with dmemOk := storeWords_ok ws h.dmemOk hal hin }

theorem State.Wf.draw (n : Nat) : State.Wf { s with drawCtr := n } := { h with }

theorem State.Wf.bump (n : Nat) : (s.bump n).Wf := h.draw _

theorem State.Wf.afterLoad (ea : Word) (cnt : Nat) : (s.afterLoad ea cnt).Wf := h.draw _

theorem State.Wf.advance : s.advance.Wf := { h with }

theorem State.Wf.jump (target : Word) : (s.jump target).Wf := { h with }

/-- R523: a fault records a cause and enters FAULTED. -/
theorem State.Wf.takeFault {x : Exc} (hx : x.cause ≠ .none) : (s.takeFault x).Wf :=
  { h with
    faulted := ⟨fun _ => rfl, fun _ => hx⟩
    noFault := fun hn => absurd hn hx
    pending := fun _ => .inr rfl }

/-- R65: outside FAULTED no cause is recorded. -/
theorem State.Wf.cause_eq_none (hr : s.runState ≠ .faulted) : s.cause = .none :=
  not_not.mp fun hc => hr (h.faulted.mp hc)

/-- R211: HALT is no fault, so it may not run in FAULTED. -/
theorem State.Wf.halt (hr : s.runState ≠ .faulted) : s.halt.Wf :=
  { h with
    faulted := ⟨fun hc => absurd (h.cause_eq_none hr) hc, fun hh => by cases hh⟩
    pending := fun _ => .inl rfl }

/-- R542: START clears what a fault recorded. -/
theorem State.Wf.start : s.start.Wf :=
  { h with
    faulted := ⟨fun hc => absurd rfl hc, fun hh => by cases hh⟩
    noFault := fun _ => ⟨rfl, rfl⟩
    pending := fun hp => by cases hp }

/-- R571: host reset keeps the memories. -/
theorem State.Wf.hostReset : s.hostReset.Wf :=
  { State.powerOn_wf h.params with imemOk := h.imemOk, dmemOk := h.dmemOk }

end

/-- R440: a run of P writes, each of a polynomial of degree N. -/
theorem State.Wf.setPs (cs : List (List Word)) {s : State} (h : s.Wf) (d : Nat) (hdeg : degreeOk s.ringN)
    (hlen : ∀ c ∈ cs, c.length = s.ringN) : (s.setPs d cs).Wf := by
  induction cs generalizing s d with
  | nil => exact h
  | cons c cs ih =>
    unfold State.setPs
    split
    · exact ih (h.setP _ hdeg (hlen c List.mem_cons_self)) _ hdeg fun c' hc' => hlen c' (List.mem_cons_of_mem _ hc')
    · exact h

/-! ### Checks, for a property that every fault has -/

/-- R52: what a predicate says of the values that tags are written with. -/
theorem degreeOk_of_nOk {s : State} (h : s.nOk = true) : degreeOk s.ringN := paramN_holds.mpr h

theorem rankOk_of_kOk {s : State} (h : s.kOk = true) : rankOk s.rankK := paramK_holds.mpr h

/-- R52, R36: a dimension an L register may have. -/
def dimOk (d : Nat) : Prop := 1 ≤ d ∧ d ≤ Config.dimMax

theorem dimOk_of_lweOk {s : State} (h : s.lweOk = true) : dimOk s.lweN := paramLwe_holds.mpr h

/-- R52: NMAX is the largest degree. -/
theorem degreeOk.le {n : Nat} (h : degreeOk n) : 1 ≤ n ∧ n ≤ 2048 := by
  simp only [degreeOk, List.mem_cons, List.not_mem_nil, or_false] at h
  omega

/-- R53: EXT_N is a dimension, since K_OK bounds k by 2. -/
theorem dimOk_mul {n k : Nat} (hdeg : degreeOk n) (hrank : rankOk k) : dimOk (k * n) := by
  have hn := hdeg.le
  unfold dimOk Config.dimMax
  rcases hrank with rfl | rfl <;> omega

section
variable {s : State} {Q : State → Prop} (hf : ∀ x : Exc, x.cause ≠ .none → Q (s.takeFault x))
include hf

/-- R15: a check goes on with what it has checked. -/
theorem answers_need {c : Bool} {x : Exc} {k : Unit → Result} (hx : x.cause ≠ .none)
    (hk : c = true → Answers (k ()) Q) : Answers (need s c x k) Q :=
  (need_answers c x k).mpr ⟨hk, fun _ => hf x hx⟩

section
variable {k : Unit → Result}

theorem answers_needN (hk : degreeOk s.ringN → Answers (k ()) Q) : Answers (needN s k) Q :=
  answers_need hf Cause.noConfusion fun hc => hk (degreeOk_of_nOk hc)

theorem answers_needRing (hk : degreeOk s.ringN → rankOk s.rankK → Answers (k ()) Q) : Answers (needRing s k) Q :=
  answers_need hf Cause.noConfusion fun hn => answers_need hf Cause.noConfusion fun hr =>
    hk (degreeOk_of_nOk hn) (rankOk_of_kOk hr)

theorem answers_needLwe (hk : dimOk s.lweN → Answers (k ()) Q) : Answers (needLwe s k) Q :=
  answers_need hf Cause.noConfusion fun hc => hk (dimOk_of_lweOk hc)

theorem answers_needGad (hk : ParamPred.gad.Holds s → Answers (k ()) Q) : Answers (needGad s k) Q :=
  answers_need hf Cause.noConfusion fun hc => hk (paramGad_holds.mpr hc)

theorem answers_needKs (hk : Answers (k ()) Q) : Answers (needKs s k) Q :=
  answers_need hf Cause.noConfusion fun _ => hk

/-- R350: either selection leaves a legal dimension. -/
theorem answers_needSel {sel : KeySel} (hk : dimOk (dimOf s sel) → Answers (k ()) Q) :
    Answers (needSel s sel k) Q := by
  cases sel with
  | lwe => exact answers_needLwe hf hk
  | ext => exact answers_needRing hf fun hn hr => hk (dimOk_mul hn hr)

theorem answers_tagP {a : PIdx} {x : PReg} (hk : Answers (k ()) Q) : Answers (tagP s a x k) Q :=
  answers_need hf Cause.noConfusion fun _ => hk

theorem answers_tagF {a : FIdx} {x : FReg} (hk : Answers (k ()) Q) : Answers (tagF s a x k) Q :=
  answers_need hf Cause.noConfusion fun _ => hk

theorem answers_tagL {a : LIdx} {x : LReg} {d : Nat} (hk : x.dim = d → Answers (k ()) Q) :
    Answers (tagL s a x d k) Q :=
  answers_need hf Cause.noConfusion fun hc => hk (beq_iff_eq.mp hc)

theorem answers_tagR {a : RIdx} {x : RReg} (hk : Answers (k ()) Q) : Answers (tagR s a x k) Q :=
  answers_need hf Cause.noConfusion fun _ => hk

theorem answers_tagKey {sel : KeySel} {fits : Bool} (hk : Answers (k ()) Q) : Answers (tagKey s sel fits k) Q :=
  answers_need hf Cause.noConfusion fun _ => hk

theorem answers_needModulus {m : Word} (hk : Answers (k ()) Q) : Answers (needModulus s m k) Q :=
  answers_need hf Cause.noConfusion fun _ => hk

theorem answers_needBelow {v : Word} {lim : Nat} (hk : v.toNat < lim → Answers (k ()) Q) :
    Answers (needBelow s v lim k) Q :=
  answers_need hf Cause.noConfusion fun hc => hk (of_decide_eq_true hc)

theorem answers_needSpan {ea : Word} {bytes : Nat} (hk : s.spanOk ea bytes → Answers (k ()) Q) :
    Answers (needSpan s ea bytes k) Q :=
  answers_need hf Cause.noConfusion fun hal => answers_need hf Cause.noConfusion fun hin =>
    hk ⟨beq_iff_eq.mp hal, of_decide_eq_true hin⟩

theorem answers_needKsk (hk : Answers (k ()) Q) : Answers (needKsk s k) Q := answers_needSpan hf fun _ => hk

end

theorem answers_withS {a : SIdx} {k : Word → Result} (hk : ∀ v, Answers (k v) Q) : Answers (withS s a k) Q :=
  (withS_answers a k).mpr ⟨fun v _ => hk v, fun _ => hf _ Cause.noConfusion⟩

theorem answers_withP {a : PIdx} {k : PReg → Result} (hk : ∀ x, Answers (k x) Q) : Answers (withP s a k) Q :=
  (withP_answers a k).mpr ⟨fun x _ => hk x, fun _ => hf _ Cause.noConfusion⟩

theorem answers_withF {a : FIdx} {k : FReg → Result} (hk : ∀ x, s.fRegs[a] = some x → Answers (k x) Q) :
    Answers (withF s a k) Q :=
  (withF_answers a k).mpr ⟨hk, fun _ => hf _ Cause.noConfusion⟩

theorem answers_withL {a : LIdx} {k : LReg → Result} (hk : ∀ x, s.lRegs[a] = some x → Answers (k x) Q) :
    Answers (withL s a k) Q :=
  (withL_answers a k).mpr ⟨hk, fun _ => hf _ Cause.noConfusion⟩

theorem answers_withR {a : RIdx} {k : RReg → Result} (hk : ∀ x, s.rRegs[a] = some x → Answers (k x) Q) :
    Answers (withR s a k) Q :=
  (withR_answers a k).mpr ⟨hk, fun _ => hf _ Cause.noConfusion⟩

theorem answers_withKey {sel : KeySel} {k : List Bool → Bool → Result} (hk : ∀ bits fits, Answers (k bits fits) Q) :
    Answers (withKey s sel k) Q :=
  (withKey_answers sel k).mpr ⟨fun bits fits _ => hk bits fits, fun _ => hf _ Cause.noConfusion⟩

theorem answers_withKeyR {k : KeyR → Result} (hk : ∀ x, Answers (k x) Q) : Answers (withKeyR s k) Q :=
  (withKeyR_answers k).mpr ⟨fun x _ _ _ => hk x, fun _ _ _ => hf _ Cause.noConfusion,
    fun _ => hf _ Cause.noConfusion⟩

theorem answers_withSlot {slot : Nat} {k : Rgsw → Result} (hk : ∀ g, Answers (k g) Q) :
    Answers (withSlot s slot k) Q :=
  (withSlot_answers slot k).mpr ⟨fun g _ _ => hk g, fun _ _ _ => hf _ Cause.noConfusion,
    fun _ => hf _ Cause.noConfusion⟩

/-- R480: the checks of the three bootstrapping instructions. -/
theorem answers_needBoot {ks : Bool} {a : LIdx} {b : SIdx} {k : LReg → Word → Result}
    (hk : ∀ c mu, degreeOk s.ringN → rankOk s.rankK → dimOk s.lweN → Answers (k c mu) Q) :
    Answers (needBoot s ks a b k) Q :=
  needBoot_answers ks a b k
    (fun c mu hring hlwe _ _ _ _ _ _ _ => by
      obtain ⟨hn, hr⟩ : s.nOk = true ∧ s.kOk = true := Bool.and_eq_true_iff.mp hring
      exact hk c mu (degreeOk_of_nOk hn) (rankOk_of_kOk hr) (dimOk_of_lweOk hlwe))
    hf

end

/-- R115: the fault of a bad key word is taken after the load's draws. -/
theorem answers_needKeyWords {t : State} {Q : State → Prop} (hf : ∀ x : Exc, x.cause ≠ .none → Q (t.takeFault x))
    {w : List Word} {k : Unit → Result} (hk : Answers (k ()) Q) : Answers (needKeyWords t w k) Q :=
  (needKeyWords_answers t w k).mpr ⟨fun _ => hk, fun _ _ => hf _ Cause.noConfusion⟩

/-! ### The values that instructions write -/

theorem lweTrivial_ok {d : Nat} (h : dimOk d) (mu : Word) : (lweTrivial d mu).Ok := ⟨h.1, h.2, vec_length ..⟩

theorem lweEncrypt_ok {d : Nat} (h : dimOk d) (key : List Bool) (k : Nat) (m : Word) (e : Int) (al : F64) :
    (lweEncrypt d key (uniformWords d k) m e al).Ok := ⟨h.1, h.2, vec_length ..⟩

theorem lweOfWords_ok {d : Nat} (h : dimOk d) (w : List Word) : (LReg.ofWords d w).Ok := ⟨h.1, h.2, vec_length ..⟩

/-- R351: a combination has the accumulator's dimension. -/
theorem lweCombine_ok {acc : LReg} (h : acc.Ok) (f : Word → Word → Word) (var : F64) (x : LReg) :
    (lweCombine f var acc x).Ok := ⟨h.dimMin, h.dimMax, vec_length ..⟩

theorem lweNeg_ok {x : LReg} (h : x.Ok) : (lweNeg x).Ok := ⟨h.dimMin, h.dimMax, vec_length ..⟩

theorem rlweExtract_ok {n k : Nat} (hdeg : degreeOk n) (hrank : rankOk k) (i : Nat) (x : Rlwe) :
    (rlweExtract n k i x).Ok := ⟨(dimOk_mul hdeg hrank).1, (dimOk_mul hdeg hrank).2, vec_length ..⟩

theorem ksStep_ok (m : Memory) (base n t bb : Nat) (cin : LReg) (i : Nat) {acc : LReg × Nat} (h : acc.1.Ok)
    (j : Nat) : (ksStep m base n t bb cin i acc j).1.Ok := by
  unfold ksStep
  dsimp only
  split
  · exact h
  · exact lweCombine_ok h ..

/-- R465: every step of the key switch subtracts from the output sample. -/
theorem keySwitch_ok {n : Nat} (h : dimOk n) (m : Memory) (base nSrc t bb : Nat) (cin : LReg) (c : Nat) :
    (keySwitch m base nSrc n t bb cin c).1.Ok :=
  List.foldlRecOn (motive := fun acc : LReg × Nat => acc.1.Ok) _ _ (lweTrivial_ok h cin.b) fun _ hi i _ =>
    List.foldlRecOn (motive := fun acc : LReg × Nat => acc.1.Ok) _ _ hi fun _ hj j _ =>
      ksStep_ok m base n t bb cin i hj j

/-- An RLWE value given by its k + 1 components. -/
theorem rlwe_ok_of_vec {n k : Nat} {f : Nat → List Word} {var : F64} (hf : ∀ q, (f q).length = n) :
    Rlwe.Ok ⟨vec (k + 1) f, var⟩ n k where
  comps := vec_length ..
  lens c hc := by
    obtain ⟨q, -, rfl⟩ := mem_vec.mp hc
    exact hf q

section
variable {n k : Nat}

theorem rlweFresh_ok (key : List (List Bool)) (mu : List Word) (al : F64) (c : Nat) :
    (rlweFresh n k key mu al c).Ok n k :=
  rlwe_ok_of_vec fun q => by split <;> exact vec_length ..

theorem rlweTrivial_ok (mu : List Word) : (rlweTrivial n k mu).Ok n k := rlwe_ok_of_vec fun _ => vec_length ..

theorem rlweCombine_ok (f : Word → Word → Word) (var : F64) (x y : Rlwe) : (rlweCombine f n k var x y).Ok n k :=
  rlwe_ok_of_vec fun _ => vec_length ..

theorem rlweAddMul_ok (p : List Word) (acc src : Rlwe) (c : Nat) : (rlweAddMul n k p acc src c).Ok n k :=
  rlwe_ok_of_vec fun _ => vec_length ..

theorem rlweMulXaiM1_ok (e : Nat) (x : Rlwe) (var : F64) : (rlweMulXaiM1 n k e x var).Ok n k :=
  rlwe_ok_of_vec fun _ => vec_length ..

theorem rlweOfWords_ok (w : List Word) (at0 : Nat) : (Rlwe.ofWords n k w at0).Ok n k :=
  rlwe_ok_of_vec fun _ => vec_length ..

theorem addGadget_ok (i : Nat) (v : Word) (x : Rlwe) : (addGadget n k i v x).Ok n k :=
  rlwe_ok_of_vec fun _ => vec_length ..

theorem extprod_ok (l bgbit : Nat) (g : Rgsw) (c : Rlwe) (c0 : Nat) (var : F64) :
    (extprod n k l bgbit g c c0 var).Ok n k :=
  rlwe_ok_of_vec fun _ => vec_length ..

theorem blindStep_ok (l bgbit : Nat) (bk : Assoc Rgsw) (c : LReg) {acc : Rlwe × Nat} (h : acc.1.Ok n k) (i : Nat) :
    (blindStep n k l bgbit bk c acc i).1.Ok n k := by
  rw [blindStep]
  split
  · exact h
  · exact rlweCombine_ok ..

/-- R483, R484: ACC starts as a trivial sample and every step combines it. -/
theorem blindRotate_ok (l bgbit : Nat) (bk : Assoc Rgsw) (c : LReg) (mu : Word) (c0 : Nat) :
    (blindRotate n k l bgbit bk c mu c0).1.Ok n k :=
  List.foldlRecOn (motive := fun acc : Rlwe × Nat => acc.1.Ok n k) _ _ (rlweTrivial_ok _)
    fun _ h i _ => blindStep_ok l bgbit bk c h i

end

/-- R441, R442: a slot written under the current CSRs, with (k + 1)·l rows. -/
theorem rgsw_ok_of_vec {s : State} (hdeg : degreeOk s.ringN) (hrank : rankOk s.rankK) (hgad : ParamPred.gad.Holds s)
    {f : Nat → Rlwe} (hf : ∀ p, (f p).Ok s.ringN s.rankK) :
    Rgsw.Ok ⟨s.ringN, s.rankK, s.gadL, s.gadBits, vec ((s.rankK + 1) * s.gadL) f⟩ where
  deg := hdeg
  rank := hrank
  lenMin := hgad.1
  baseMin := hgad.2.1
  fits := hgad.2.2
  count := vec_length ..
  rows r hr := by
    obtain ⟨p, -, rfl⟩ := mem_vec.mp hr
    exact hf p

theorem keyBits_length (n : Nat) (w : List Word) (at0 : Nat) : (keyBits n w at0).length = n := vec_length ..

/-- R411: k key polynomials of degree N. -/
theorem keyR_ok_of_vec {n k : Nat} (hdeg : degreeOk n) (hrank : rankOk k) {f : Nat → List Bool}
    (hf : ∀ m, (f m).length = n) : KeyR.Ok ⟨n, k, vec k f⟩ where
  deg := hdeg
  rank := hrank
  count := vec_length ..
  lens q hq := by
    obtain ⟨m, -, rfl⟩ := mem_vec.mp hq
    exact hf m

/-- R330: the zero polynomial is of class Z. -/
theorem class_z_ok (n : Nat) : ErrClass.z.Ok (vec n fun _ => (0 : Int)) := fun z hz => by
  obtain ⟨_, -, rfl⟩ := mem_vec.mp hz
  rfl

/-- R331: a polynomial is of the class of its own signed width. -/
theorem class_i_ok (v : List Int) : (ErrClass.i (sbits v)).Ok v := ⟨one_le_sbits v, fun _ hz => sbits_spec hz⟩

/-- R332: coefficients read signed lie in the range of class T. -/
theorem class_t_ok (n : Nat) (c : List Word) : ErrClass.t.Ok (ints n c) := fun z hz => by
  obtain ⟨i, -, rfl⟩ := mem_vec.mp hz
  exact ⟨BitVec.le_toInt _, BitVec.toInt_lt⟩

/-- R335: a monomial has entries −1, 0 and 1. -/
theorem class_monomial_ok (n e : Nat) : (ErrClass.i 2).Ok (monomial n e) := by
  refine ⟨by decide, fun z hz => ?_⟩
  obtain ⟨i, -, rfl⟩ := mem_vec.mp hz
  split
  · decide
  · split <;> decide

/-- R334: a product is added with class M of at least one product, or G. -/
theorem mulAddClass_ok (acc x y : ErrClass) (v : List Int) : (mulAddClass acc x y).Ok v := by
  unfold mulAddClass
  split
  · exact Nat.le_refl 1
  · exact Nat.le_refl 1
  · exact Nat.le_add_left ..
  · exact Nat.le_add_left ..
  · trivial

/-- R111: the words of a sample's image. -/
theorem lweToWords_length (x : LReg) : 4 * x.toWords.length = lStride x.dim := by
  simp only [lStride, LReg.toWords, List.length_append, vec_length, List.length_cons, List.length_nil]; ring

/-- R113: the words of an RLWE sample's image. -/
theorem rlweToWords_length (x : Rlwe) (n k : Nat) : 4 * (x.toWords n k).length = rStride n k := by
  simp only [rStride, Rlwe.toWords, List.length_append, vec_length, List.length_cons, List.length_nil]; ring

/-! ### Fetching -/

/-- R200 items 1 and 2: a fetch that fails gives a cause. -/
theorem fetchFault_cause {s : State} {x : Exc} (h : fetchFault s = some x) : x.cause ≠ .none := by
  unfold fetchFault at h
  split_ifs at h <;> cases h <;> exact Cause.noConfusion

/-! ### The shapes that several instructions share -/

section
variable {s : State} (h : s.Wf)
include h

/-- R203: an instruction completes by advancing pc. -/
theorem done_wf : Answers (done s) State.Wf := (done_answers s).mpr h.advance

/-- The invariant as a property that every fault has. -/
theorem State.Wf.faults : ∀ x : Exc, x.cause ≠ .none → (s.takeFault x).Wf := fun _ hx => h.takeFault hx

/-- A checked store of a whole image. -/
theorem State.Wf.store_span {ea : Word} {bytes : Nat} (hspan : s.spanOk ea bytes) {ws : List Word}
    (hlen : 4 * ws.length = bytes) : (s.store ea.toNat ws).Wf :=
  h.store hspan.1 (hlen ▸ hspan.2)

theorem scalarBin_wf (f : Word → Word → Word) (d a b : SIdx) : Answers (scalarBin f d a b s) State.Wf :=
  answers_withS h.faults fun _ => answers_withS h.faults fun _ => done_wf (h.setS _ _)

theorem branch_wf (cond : Word → Word → Bool) (a b : SIdx) (imm : Word) :
    Answers (branch cond a b imm s) State.Wf := by
  refine answers_withS h.faults fun x => answers_withS h.faults fun y => ?_
  split
  · exact (next_answers _).mpr (h.jump _)
  · exact done_wf h

theorem polyBin_wf (f : Word → Word → Word) (d a b : PIdx) : Answers (polyBin f d a b s) State.Wf :=
  answers_needN h.faults fun hn => answers_withP h.faults fun _ => answers_withP h.faults fun _ =>
    answers_tagP h.faults <| answers_tagP h.faults <| done_wf (h.setP d hn (vec_length ..))

/-- `f` answers N coefficients, as the rotations do. -/
theorem polyMono_wf {f : Nat → List Word → List Word} (hlen : ∀ e c, (f e c).length = s.ringN) (d a : PIdx)
    (b : SIdx) : Answers (polyMono f d a b s) State.Wf :=
  answers_needN h.faults fun hn => answers_withP h.faults fun _ => answers_withS h.faults fun _ =>
    answers_tagP h.faults <| answers_needBelow h.faults fun _ => done_wf (h.setP d hn (hlen ..))

theorem forward_wf {cls : List Int → ErrClass} (hcls : ∀ c, (cls (ints s.ringN c)).Ok (ints s.ringN c)) (d : FIdx)
    (a : PIdx) : Answers (forward cls d a s) State.Wf :=
  answers_needN h.faults fun hn => answers_withP h.faults fun x => answers_tagP h.faults <|
    done_wf (h.setF d hn (vec_length ..) (hcls x.c))

theorem lweEnc_wf (sel : KeySel) (d : LIdx) (a : SIdx) : Answers (lweEnc sel d a s) State.Wf :=
  answers_needSel h.faults fun hd => answers_withS h.faults fun _ => answers_withKey h.faults fun _ _ =>
    answers_tagKey h.faults <| done_wf ((h.setL d (lweEncrypt_ok hd ..)).bump _)

theorem lweDec_wf (sel : KeySel) (d : SIdx) (a : LIdx) (b : SIdx) : Answers (lweDec sel d a b s) State.Wf :=
  answers_needSel h.faults fun _ => answers_withL h.faults fun _ _ => answers_withS h.faults fun _ =>
    answers_withKey h.faults fun _ _ => answers_tagL h.faults fun _ => answers_tagKey h.faults <|
      answers_needModulus h.faults <| done_wf (h.setS _ _)

theorem lwePhase_wf (sel : KeySel) (d : SIdx) (a : LIdx) : Answers (lwePhase sel d a s) State.Wf :=
  answers_needSel h.faults fun _ => answers_withL h.faults fun _ _ => answers_withKey h.faults fun _ _ =>
    answers_tagL h.faults fun _ => answers_tagKey h.faults <| done_wf (h.setS _ _)

theorem lweTriv_wf (sel : KeySel) (d : LIdx) (a : SIdx) : Answers (lweTriv sel d a s) State.Wf :=
  answers_needSel h.faults fun hd => answers_withS h.faults fun _ => done_wf (h.setL d (lweTrivial_ok hd _))

/-- `f` keeps the accumulator in order, as every combination does. -/
theorem lweAcc_wf {f : LReg → LReg → LReg} (hf : ∀ acc x, acc.Ok → (f acc x).Ok) (d a : LIdx) :
    Answers (lweAcc f d a s) State.Wf :=
  answers_withL h.faults fun x _ => answers_withL h.faults fun acc hacc => answers_tagL h.faults fun _ =>
    done_wf (h.setL d (hf acc x (h.lOk d acc hacc)))

theorem lweAccMul_wf {f : Word → LReg → LReg → LReg} (hf : ∀ p acc x, acc.Ok → (f p acc x).Ok) (d a : LIdx)
    (b : SIdx) : Answers (lweAccMul f d a b s) State.Wf :=
  answers_withL h.faults fun x _ => answers_withS h.faults fun p => answers_withL h.faults fun acc hacc =>
    answers_tagL h.faults fun _ => done_wf (h.setL d (hf p acc x (h.lOk d acc hacc)))

theorem lweLoad_wf (sel : KeySel) (d : LIdx) (a : SIdx) (imm : Word) : Answers (lweLoad sel d a imm s) State.Wf :=
  answers_needSel h.faults fun hd => answers_withS h.faults fun _ => answers_needSpan h.faults fun _ =>
    done_wf ((h.afterLoad _ _).setL d (lweOfWords_ok hd _))

theorem rlweAcc_wf (f : Word → Word → Word) (d a : RIdx) : Answers (rlweAcc f d a s) State.Wf :=
  answers_needRing h.faults fun hn hr => answers_withR h.faults fun _ _ => answers_withR h.faults fun _ _ =>
    answers_tagR h.faults <| answers_tagR h.faults <| done_wf (h.setR d hn hr (rlweCombine_ok ..))

theorem execCsrr_wf (d : SIdx) (c : Nat) : Answers (execCsrr d c s) State.Wf := by
  unfold execCsrr
  cases csrRead s c with
  | none => exact (raise_answers ..).mpr (h.takeFault Cause.noConfusion)
  | some v => exact done_wf (h.setS d v)

/-- R440: every digit polynomial has degree N. -/
theorem execGDecomp_wf (d a : PIdx) : Answers (execGDecomp d a s) State.Wf :=
  answers_needN h.faults fun hn => answers_needGad h.faults fun _ => answers_withP h.faults fun _ =>
    answers_tagP h.faults <| answers_need h.faults Cause.noConfusion fun _ =>
      done_wf (h.setPs _ _ hn fun c hc => by
        obtain ⟨j, -, rfl⟩ := mem_vec.mp hc
        exact vec_length ..)

/-! ### Every instruction -/

/-- Every instruction that runs keeps the invariant: its checks in order, then its writes. -/
theorem exec_wf (hr : s.runState ≠ .faulted) (i : Instr) : Answers (exec i s) State.Wf := by
  have hf := h.faults
  unfold exec
  cases i with
  -- system, scalar and control (40_sequencer.md)
  | nop => exact done_wf h
  | halt => exact (next_answers _).mpr (h.halt hr)
  | csrr d c => exact execCsrr_wf h d c
  | csrw a c => exact answers_need hf Cause.noConfusion fun _ => answers_withS hf fun v => done_wf (h.setCsr c v)
  | sLi => exact done_wf (h.setS _ _)
  | sAddi => exact answers_withS hf fun _ => done_wf (h.setS _ _)
  | sAdd | sSub | sMul | sAnd | sSll | sSrl => exact scalarBin_wf h ..
  | sLw =>
    exact answers_withS hf fun _ => answers_needSpan hf fun _ => done_wf ((h.afterLoad _ _).setS _ _)
  | sSw =>
    exact answers_withS hf fun _ => answers_withS hf fun _ => answers_needSpan hf fun hspan =>
      done_wf (h.store_span hspan rfl)
  | beq | bne | blt | bltu => exact branch_wf h ..
  | jmp => exact (next_answers _).mpr (h.jump _)
  | jal => exact (next_answers _).mpr ((h.setS _ _).jump _)
  | jr => exact answers_withS hf fun _ => (next_answers _).mpr (h.jump _)
  -- torus scalar (41_torus.md)
  | mswF | aphase =>
    exact answers_withS hf fun _ => answers_withS hf fun _ => answers_needModulus hf <| done_wf (h.setS _ _)
  | mswT =>
    exact answers_withS hf fun _ => answers_withS hf fun _ => answers_needModulus hf <|
      answers_needBelow hf fun _ => done_wf (h.setS _ _)
  | gauss => exact answers_withS hf fun _ => done_wf ((h.setS _ _).bump 1)
  -- polynomial ring (42_polynomial.md)
  | pClr d => exact answers_needN hf fun hn => done_wf (h.setP d hn (vec_length ..))
  | pAdd | pSub => exact polyBin_wf h ..
  | pAddmulz d =>
    exact answers_needN hf fun hn => answers_withP hf fun _ => answers_withS hf fun _ => answers_withP hf fun _ =>
      answers_tagP hf <| answers_tagP hf <| done_wf (h.setP d hn (vec_length ..))
  | pMulxai => exact polyMono_wf h (fun _ _ => vec_length ..) ..
  | pMulxaim1 => exact polyMono_wf h (fun _ _ => vec_length ..) ..
  | pMulfft d =>
    exact answers_needN hf fun hn => answers_withP hf fun _ => answers_withP hf fun _ =>
      answers_tagP hf <| answers_tagP hf <| done_wf ((h.setP d hn (vec_length ..)).bump _)
  | pLd d =>
    exact answers_needN hf fun hn => answers_withS hf fun _ => answers_needSpan hf fun _ =>
      done_wf ((h.afterLoad _ _).setP d hn (loadWords_length ..))
  | pSt =>
    exact answers_needN hf fun _ => answers_withS hf fun _ => answers_withP hf fun _ => answers_tagP hf <|
      answers_needSpan hf fun hspan => done_wf (h.store_span hspan (congrArg (4 * ·) (vec_length ..)))
  -- FFT engine (43_fft.md)
  | fClr d => exact answers_needN hf fun hn => done_wf (h.setF d hn (vec_length ..) (class_z_ok _))
  | fFwdi => exact forward_wf h (fun _ => class_i_ok _) ..
  | fFwdt => exact forward_wf h (cls := fun _ => .t) (fun c => class_t_ok s.ringN c) ..
  | fInv d =>
    exact answers_needN hf fun hn => answers_withF hf fun _ _ => answers_tagF hf <|
      done_wf ((h.setP d hn (vec_length ..)).bump _)
  | fMuladd d =>
    exact answers_needN hf fun hn => answers_withF hf fun _ _ => answers_withF hf fun _ _ =>
      answers_withF hf fun _ _ => answers_tagF hf <| answers_tagF hf <| answers_tagF hf <|
        done_wf (h.setF d hn (vec_length ..) (mulAddClass_ok ..))
  | fMono d =>
    exact answers_needN hf fun hn => answers_withS hf fun _ => answers_needBelow hf fun _ =>
      done_wf (h.setF d hn (vec_length ..) (class_monomial_ok ..))
  -- LWE (44_lwe.md)
  | lEnc | lEncX => exact lweEnc_wf h ..
  | lDec | lDecX => exact lweDec_wf h ..
  | lPhase | lPhaseX => exact lwePhase_wf h ..
  | lTriv | lTrivX => exact lweTriv_wf h ..
  | lAdd | lSub => exact lweAcc_wf h (fun _ _ hacc => lweCombine_ok hacc ..) ..
  | lAddmul | lSubmul => exact lweAccMul_wf h (fun _ _ _ hacc => lweCombine_ok hacc ..) ..
  | lNeg d a => exact answers_withL hf fun x hx => done_wf (h.setL d (lweNeg_ok (h.lOk a x hx)))
  | lCopy d a => exact answers_withL hf fun x hx => done_wf (h.setL d (h.lOk a x hx))
  | lLd | lLdX => exact lweLoad_wf h ..
  | lSt =>
    exact answers_withS hf fun _ => answers_withL hf fun x _ => answers_needSpan hf fun hspan =>
      done_wf (h.store_span hspan (lweToWords_length x))
  | keyLdl =>
    exact answers_needLwe hf fun hd => answers_withS hf fun _ => answers_needSpan hf fun _ =>
      answers_needKeyWords (h.afterLoad _ _).faults <|
        done_wf ((h.afterLoad _ _).setKeyL ⟨hd.1, hd.2, keyBits_length ..⟩)
  -- RLWE (45_rlwe.md)
  | rEnc0 d =>
    exact answers_needRing hf fun hn hr => answers_withKeyR hf fun _ =>
      done_wf ((h.setR d hn hr (rlweFresh_ok ..)).bump _)
  | rEnc d =>
    exact answers_needRing hf fun hn hr => answers_withP hf fun _ => answers_tagP hf <|
      answers_withKeyR hf fun _ => done_wf ((h.setR d hn hr (rlweFresh_ok ..)).bump _)
  | rPhase d =>
    exact answers_needRing hf fun hn _ => answers_withR hf fun _ _ => answers_tagR hf <|
      answers_withKeyR hf fun _ => done_wf (h.setP d hn (vec_length ..))
  | rTriv d =>
    exact answers_needRing hf fun hn hr => answers_withP hf fun _ => answers_tagP hf <|
      done_wf (h.setR d hn hr (rlweTrivial_ok _))
  | rAdd | rSub => exact rlweAcc_wf h ..
  | rAddmulr d =>
    exact answers_needRing hf fun hn hr => answers_withP hf fun _ => answers_withR hf fun _ _ =>
      answers_withR hf fun _ _ => answers_tagP hf <| answers_tagR hf <| answers_tagR hf <|
        done_wf ((h.setR d hn hr (rlweAddMul_ok ..)).bump _)
  | rMulxaim1 d =>
    exact answers_needRing hf fun hn hr => answers_withR hf fun _ _ => answers_withS hf fun _ =>
      answers_tagR hf <| answers_needBelow hf fun _ => done_wf ((h.setR d hn hr (rlweMulXaiM1_ok ..)).bump 1)
  | rExtract d =>
    exact answers_needRing hf fun hn hr => answers_withR hf fun _ _ => answers_withS hf fun _ =>
      answers_tagR hf <| answers_needBelow hf fun _ => done_wf (h.setL d (rlweExtract_ok hn hr ..))
  | rLd d =>
    exact answers_needRing hf fun hn hr => answers_withS hf fun _ => answers_needSpan hf fun _ =>
      done_wf ((h.afterLoad _ _).setR d hn hr (rlweOfWords_ok ..))
  | rSt =>
    exact answers_needRing hf fun _ _ => answers_withS hf fun _ => answers_withR hf fun x _ => answers_tagR hf <|
      answers_needSpan hf fun hspan => done_wf (h.store_span hspan (rlweToWords_length x.val ..))
  | keyLdr =>
    exact answers_needRing hf fun hn hr => answers_withS hf fun _ => answers_needSpan hf fun _ =>
      answers_needKeyWords (h.afterLoad _ _).faults <|
        done_wf ((h.afterLoad _ _).setKeyR (keyR_ok_of_vec hn hr fun _ => keyBits_length ..))
  -- RGSW (46_rgsw.md)
  | gDecomp d a => exact execGDecomp_wf h d a
  | gEnc =>
    exact answers_needRing hf fun hn hr => answers_needGad hf fun hg => answers_withS hf fun _ =>
      answers_withS hf fun _ => answers_withKeyR hf fun _ => answers_needBelow hf fun hslot =>
        done_wf ((h.setBk hslot (rgsw_ok_of_vec hn hr hg fun _ => addGadget_ok ..)).bump _)
  | gLd =>
    exact answers_needRing hf fun hn hr => answers_needGad hf fun hg => answers_withS hf fun _ =>
      answers_withS hf fun _ => answers_needBelow hf fun hslot => answers_needSpan hf fun _ =>
        done_wf ((h.afterLoad _ _).setBk hslot (rgsw_ok_of_vec hn hr hg fun _ => rlweOfWords_ok ..))
  | gExtprod d =>
    exact answers_needRing hf fun hn hr => answers_needGad hf fun _ => answers_withR hf fun _ _ =>
      answers_withS hf fun _ => answers_tagR hf <| answers_needBelow hf fun _ => answers_withSlot hf fun _ =>
        done_wf ((h.setR d hn hr (extprod_ok ..)).bump _)
  -- key switching and bootstrapping (47_keyswitch.md, 48_bootstrap.md)
  | ks d =>
    exact answers_needRing hf fun _ _ => answers_needLwe hf fun hd => answers_needKs hf <|
      answers_withL hf fun _ _ => answers_tagL hf fun _ => answers_needKsk hf <|
        done_wf ((h.setL d (keySwitch_ok hd ..)).draw _)
  | brRot d =>
    exact answers_needBoot hf fun _ _ hn hr _ => done_wf ((h.setR d hn hr (blindRotate_ok ..)).draw _)
  | bootNks d =>
    exact answers_needBoot hf fun _ _ hn hr _ => done_wf ((h.setL d (rlweExtract_ok hn hr ..)).draw _)
  | boot d =>
    exact answers_needBoot hf fun _ _ _ _ hd => answers_needKsk hf <|
      done_wf ((h.setL d (keySwitch_ok hd ..)).draw _)

/-! ### The sequencer and the host -/

/-- R200 items 4 and 5: the word's row, or ILLEGAL_INSTR. -/
theorem runWord_wf (hr : s.runState ≠ .faulted) (w : InstrWord) : Answers (runWord w s) State.Wf := by
  unfold runWord
  cases decode w with
  | ok i => exact exec_wf h hr i
  | error _ => exact (raise_answers ..).mpr (h.takeFault Cause.noConfusion)

/-- R200: a cycle faults, runs the word it fetched, or waits. -/
theorem cycle_wf : Answers (cycle s) State.Wf := by
  unfold cycle
  cases hrun : s.runState with
  | idle | halted | faulted => exact (next_answers _).mpr h
  | running =>
    cases hfault : fetchFault s with
    | some x => exact (raise_answers ..).mpr (h.takeFault (fetchFault_cause hfault))
    | none =>
      have hfetch : s.afterFetch.Wf := h.draw _
      have hrun' : s.afterFetch.runState ≠ .faulted := by simp [hrun]
      exact runWord_wf hfetch hrun' _

/-- R61: CTRL resets, starts or does nothing. -/
theorem ctrlWrite_wf (v : Word) : (ctrlWrite s v).Wf := by
  unfold ctrlWrite
  split
  · exact h.hostReset
  · split
    · exact h.start
    · exact h

theorem regWrite_wf (off : Nat) (v : Word) : (regWrite s off v).Wf := by
  unfold regWrite
  split
  · exact ctrlWrite_wf h v
  · split
    · exact { h with pending := fun hp => by cases hp }
    · exact h
  · exact { h with }
  · exact { h with }
  · exact h

/-- R540, R9: the IMEM window gives whole words inside the memory, since offsets are aligned and the size is. -/
theorem window_imem {off : Word} {addr : Nat} (hw : windowOf s.params off = .imem addr) :
    addr % 4 = 0 ∧ addr + 4 ≤ s.params.imemSize := by
  have hal := h.params.imemAligned
  simp only [windowOf] at hw
  split_ifs at hw
  injection hw
  omega

theorem window_dmem {off : Word} {addr : Nat} (hw : windowOf s.params off = .dmem addr) :
    addr % 4 = 0 ∧ addr + 4 ≤ s.params.dmemSize := by
  have hal := h.params.dmemAligned
  simp only [windowOf] at hw
  split_ifs at hw
  injection hw
  omega

/-- R541: a write of the host, in each window. -/
theorem portWrite_wf (off v : Word) : (portWrite s off v).Wf := by
  unfold portWrite
  split
  case h_1 o _ => exact regWrite_wf h o v
  case h_2 c _ =>
    split
    · exact h
    · split
      · exact h.setCsr c v
      · exact h
  case h_3 addr hw =>
    split
    · exact h
    · obtain ⟨hal, hin⟩ := window_imem h hw
      exact { h with imemOk := memSetWord_ok h.imemOk hal hin v }
  case h_4 addr hw =>
    split
    · exact h
    · obtain ⟨hal, hin⟩ := window_dmem h hw
      exact { h with dmemOk := memSetWord_ok h.dmemOk hal hin v }
  case h_5 => exact h

/-- R541: a read of the host makes draws at most. -/
theorem portRead_wf (off : Word) : (portRead s off).2.Wf := by
  unfold portRead
  split
  case h_1 => exact h
  case h_2 => split <;> exact h
  case h_3 =>
    split
    · exact h
    · exact h.draw _
  case h_4 =>
    split
    · exact h
    · exact h.draw _
  case h_5 => exact h

theorem hostRead_wf (off : Word) : (hostRead s off).Wf := { portRead_wf h off with }

/-- R531: a turn is the host's or the sequencer's. -/
theorem turn_wf : Answers (turn s) State.Wf := by
  have hturn (rest : List HostTurn) : State.Wf { s with hostIn := rest } := { h with }
  unfold turn
  split
  case h_1 => exact cycle_wf h
  case h_2 rest _ => exact cycle_wf (hturn rest)
  case h_3 off rest _ => exact (next_answers _).mpr (hostRead_wf (hturn rest) off)
  case h_4 off v rest _ => exact (next_answers _).mpr (portWrite_wf (hturn rest) off v)

end

/-- Settles O55: what every turn answers, applied to the step's answer. -/
theorem everyStepKeepsWellFormed : Obligations.EveryStepKeepsWellFormed := fun _ _ h ht => (turn_wf h).of_eq ht

end Sys2Proof.Machine
end

section
/-! PROOF of O48 and O49, the order of the first checks (R31, R52, R480, R522, R530). Each meaning is put once into
the form its rule has: the predicates of `neededParams` in order, then the registers of `readOperands` in order
(`exec_checks_in_order`). That the first false predicate, or the first invalid register, is the one that faults is
then a property of such a list of checks. -/

namespace Sys2Proof.Machine

/-! ### The predicates in order -/

/-- R52: what a meaning tests of a predicate. -/
def ParamPred.ok (s : State) : ParamPred → Bool
  | .n => s.nOk
  | .k => s.kOk
  | .lwe => s.lweOk
  | .gad => s.gadOk
  | .ks => s.ksOk
  | .bkFit => s.bkFit

theorem ParamPred.ok_iff {s : State} {p : ParamPred} : p.ok s = true ↔ p.Holds s := by
  cases p with
  | n => exact paramN_holds.symm
  | k => exact paramK_holds.symm
  | lwe => exact paramLwe_holds.symm
  | gad => exact paramGad_holds.symm
  | ks => exact paramKs_holds.symm
  | bkFit => exact paramBkFit_holds.symm

/-- R530 item 5: the checks of the predicates, in order, and then `r`. -/
def checkParams (s : State) (ps : List ParamPred) (r : Result) : Result :=
  ps.foldr (fun p r => need s (p.ok s) ⟨.badParam, p.csrNumber⟩ fun _ => r) r

theorem checkParams_cons (s : State) (p : ParamPred) (ps : List ParamPred) (r : Result) :
    checkParams s (p :: ps) r = need s (p.ok s) ⟨.badParam, p.csrNumber⟩ fun _ => checkParams s ps r := rfl

theorem checkParams_append_of_holds {s : State} {pre : List ParamPred} (h : ∀ q ∈ pre, q.Holds s)
    (post : List ParamPred) (r : Result) : checkParams s (pre ++ post) r = checkParams s post r := by
  induction pre with
  | nil => rfl
  | cons p pre ih =>
    obtain ⟨hp, hpre⟩ := List.forall_mem_cons.mp h
    rw [List.cons_append, checkParams_cons, need_true (ParamPred.ok_iff.mpr hp), ih hpre]

/-- R530 item 5: the checks go on when every predicate holds. -/
theorem checkParams_of_holds {s : State} {ps : List ParamPred} (h : ∀ p ∈ ps, p.Holds s) (r : Result) :
    checkParams s ps r = r := by
  simpa [checkParams] using checkParams_append_of_holds h [] r

/-- R52: the first false predicate is the one that faults. -/
theorem checkParams_first_false {s : State} {pre post : List ParamPred} {p : ParamPred}
    (hpre : ∀ q ∈ pre, q.Holds s) (hp : ¬ p.Holds s) (r : Result) :
    checkParams s (pre ++ p :: post) r = raise s ⟨.badParam, p.csrNumber⟩ := by
  have hp' : p.ok s = false := Bool.eq_false_iff.mpr fun hok => hp (ParamPred.ok_iff.mp hok)
  rw [checkParams_append_of_holds hpre, checkParams_cons, need_false hp']

/-! ### The registers in order -/

/-- R530 item 6: `r` reads the given registers in order before anything else. -/
inductive ReadsInOrder (s : State) : List RegOperand → Result → Prop where
  | nil (r : Result) : ReadsInOrder s [] r
  | s {i : SIdx} {os : List RegOperand} {k : Word → Result} :
    (∀ v, ReadsInOrder s os (k v)) → ReadsInOrder s (.s i :: os) (withS s i k)
  | p {i : PIdx} {os : List RegOperand} {k : PReg → Result} :
    (∀ x, ReadsInOrder s os (k x)) → ReadsInOrder s (.p i :: os) (withP s i k)
  | f {i : FIdx} {os : List RegOperand} {k : FReg → Result} :
    (∀ x, ReadsInOrder s os (k x)) → ReadsInOrder s (.f i :: os) (withF s i k)
  | l {i : LIdx} {os : List RegOperand} {k : LReg → Result} :
    (∀ x, ReadsInOrder s os (k x)) → ReadsInOrder s (.l i :: os) (withL s i k)
  | r {i : RIdx} {os : List RegOperand} {k : RReg → Result} :
    (∀ x, ReadsInOrder s os (k x)) → ReadsInOrder s (.r i :: os) (withR s i k)

/-- A readable register is read and the rest of the list goes on. -/
theorem ReadsInOrder.tail {s : State} {o : RegOperand} {os : List RegOperand} {r : Result}
    (h : ReadsInOrder s (o :: os) r) (ho : o.Readable s) : ReadsInOrder s os r := by
  cases h with
  | s hk => obtain ⟨v, hv⟩ := readableS_iff.mp ho; rw [withS_some hv]; exact hk v
  | p hk => obtain ⟨x, hx⟩ := readableP_iff.mp ho; rw [withP_some hx]; exact hk x
  | f hk => obtain ⟨x, hx⟩ := readableF_iff.mp ho; rw [withF_some hx]; exact hk x
  | l hk => obtain ⟨x, hx⟩ := readableL_iff.mp ho; rw [withL_some hx]; exact hk x
  | r hk => obtain ⟨x, hx⟩ := readableR_iff.mp ho; rw [withR_some hx]; exact hk x

/-- R31, R522: a register whose valid bit is clear faults when its turn comes. -/
theorem ReadsInOrder.head_unreadable {s : State} {o : RegOperand} {os : List RegOperand} {r : Result}
    (h : ReadsInOrder s (o :: os) r) (ho : ¬ o.Readable s) : r = raise s ⟨.uninit, o.info⟩ := by
  cases h with
  | @s i _ k =>
    rw [withS_none (not_not.mp ho)]
    simp [Exc.uninit, regInfo, RegFile.code, RegOperand.info]
  | p => exact withP_none (not_not.mp ho) _
  | f => exact withF_none (not_not.mp ho) _
  | l => exact withL_none (not_not.mp ho) _
  | r => exact withR_none (not_not.mp ho) _

/-- R530 item 6: the first register whose valid bit is clear is the one that faults. -/
theorem ReadsInOrder.first_unreadable {s : State} {pre post : List RegOperand} {o : RegOperand} {r : Result}
    (h : ReadsInOrder s (pre ++ o :: post) r) (hpre : ∀ q ∈ pre, q.Readable s) (ho : ¬ o.Readable s) :
    r = raise s ⟨.uninit, o.info⟩ := by
  induction pre with
  | nil => exact h.head_unreadable ho
  | cons q pre ih =>
    obtain ⟨hq, hpre⟩ := List.forall_mem_cons.mp hpre
    exact ih (h.tail hq) hpre

/-! ### Every instruction in this form -/

/-- R530 items 5 and 6: each instruction checks its predicates and then its registers, in order. Only CSRW checks
something between the two, its CSR number (R213). -/
theorem exec_checks_in_order (i : Instr) (s : State) :
    ∃ r, exec i s = checkParams s (neededParams i) r ∧
      ((∀ a c, i = .csrw a c → c < 10) → ReadsInOrder s (readOperands i) r) := by
  cases i with
  -- system, scalar, control and torus: no predicate
  | nop | halt | csrr | sLi | jmp | jal => exact ⟨_, rfl, fun _ => .nil _⟩
  | csrw a c =>
    refine ⟨_, rfl, fun hc => ?_⟩
    have hrw : csrIsRw c = true := decide_eq_true (hc a c rfl)
    show ReadsInOrder s [.s a] (execCsrw a c s)
    rw [execCsrw, need_true hrw]
    exact .s fun _ => .nil _
  | sAddi | sLw | jr | gauss => exact ⟨_, rfl, fun _ => .s fun _ => .nil _⟩
  | sAdd | sSub | sMul | sAnd | sSll | sSrl | sSw | beq | bne | blt | bltu | mswF | mswT | aphase =>
    exact ⟨_, rfl, fun _ => .s fun _ => .s fun _ => .nil _⟩
  -- polynomials and the FFT engine: N_OK
  | pClr | fClr => exact ⟨_, rfl, fun _ => .nil _⟩
  | pAdd | pSub | pMulfft => exact ⟨_, rfl, fun _ => .p fun _ => .p fun _ => .nil _⟩
  | pAddmulz => exact ⟨_, rfl, fun _ => .p fun _ => .s fun _ => .p fun _ => .nil _⟩
  | pMulxai | pMulxaim1 => exact ⟨_, rfl, fun _ => .p fun _ => .s fun _ => .nil _⟩
  | pLd | fMono => exact ⟨_, rfl, fun _ => .s fun _ => .nil _⟩
  | pSt => exact ⟨_, rfl, fun _ => .s fun _ => .p fun _ => .nil _⟩
  | fFwdi | fFwdt => exact ⟨_, rfl, fun _ => .p fun _ => .nil _⟩
  | fInv => exact ⟨_, rfl, fun _ => .f fun _ => .nil _⟩
  | fMuladd => exact ⟨_, rfl, fun _ => .f fun _ => .f fun _ => .f fun _ => .nil _⟩
  -- LWE: LWE_OK, or RING_OK with X = 1
  | lEnc | lEncX | lTriv | lTrivX | lLd | lLdX | keyLdl => exact ⟨_, rfl, fun _ => .s fun _ => .nil _⟩
  | lDec | lDecX => exact ⟨_, rfl, fun _ => .l fun _ => .s fun _ => .nil _⟩
  | lPhase | lPhaseX | lNeg | lCopy => exact ⟨_, rfl, fun _ => .l fun _ => .nil _⟩
  | lAdd | lSub => exact ⟨_, rfl, fun _ => .l fun _ => .l fun _ => .nil _⟩
  | lAddmul | lSubmul => exact ⟨_, rfl, fun _ => .l fun _ => .s fun _ => .l fun _ => .nil _⟩
  | lSt => exact ⟨_, rfl, fun _ => .s fun _ => .l fun _ => .nil _⟩
  -- RLWE and RGSW: RING_OK, or N_OK alone, and GAD_OK
  | rEnc0 => exact ⟨_, rfl, fun _ => .nil _⟩
  | rEnc | rTriv | gDecomp => exact ⟨_, rfl, fun _ => .p fun _ => .nil _⟩
  | rPhase => exact ⟨_, rfl, fun _ => .r fun _ => .nil _⟩
  | rAdd | rSub => exact ⟨_, rfl, fun _ => .r fun _ => .r fun _ => .nil _⟩
  | rAddmulr => exact ⟨_, rfl, fun _ => .p fun _ => .r fun _ => .r fun _ => .nil _⟩
  | rMulxaim1 | rExtract | gExtprod => exact ⟨_, rfl, fun _ => .r fun _ => .s fun _ => .nil _⟩
  | rLd | keyLdr => exact ⟨_, rfl, fun _ => .s fun _ => .nil _⟩
  | rSt => exact ⟨_, rfl, fun _ => .s fun _ => .r fun _ => .nil _⟩
  | gEnc | gLd => exact ⟨_, rfl, fun _ => .s fun _ => .s fun _ => .nil _⟩
  -- key switching and bootstrapping
  | ks => exact ⟨_, rfl, fun _ => .l fun _ => .nil _⟩
  | brRot | bootNks | boot => exact ⟨_, rfl, fun _ => .l fun _ => .s fun _ => .nil _⟩

/-! ### The first false predicate -/

/-- R52: the first clause of O48. -/
theorem exec_first_false_param {i : Instr} {s : State} {pre post : List ParamPred} {p : ParamPred}
    (hi : neededParams i = pre ++ p :: post) (hpre : ∀ q ∈ pre, q.Holds s) (hp : ¬ p.Holds s) :
    exec i s = raise s ⟨.badParam, p.csrNumber⟩ := by
  obtain ⟨r, hexec, -⟩ := exec_checks_in_order i s
  rw [hexec, hi, checkParams_first_false hpre hp]

theorem neededParams_of_needsDegree {i : Instr} (h : needsDegree i = true) :
    ∃ post, neededParams i = [] ++ .n :: post := by
  cases i <;> cases h <;> exact ⟨_, rfl⟩

theorem neededParams_of_needsRank {i : Instr} (h : needsRank i = true) :
    ∃ post, neededParams i = [.n] ++ .k :: post := by
  cases i <;> cases h <;> exact ⟨_, rfl⟩

/-- Settles O48: the first false predicate of the list of checks; the ring's two predicates stand first in it. -/
theorem illegalRingParametersFault : Obligations.IllegalRingParametersFault := by
  refine ⟨fun i s pre post p hi hpre hp => exec_first_false_param hi hpre hp, fun i s => ⟨fun hi hn => ?_,
    fun hi hn hk => ?_⟩⟩
  · obtain ⟨post, hpost⟩ := neededParams_of_needsDegree hi
    exact exec_first_false_param hpost (by simp) (by simp [hn])
  · obtain ⟨post, hpost⟩ := neededParams_of_needsRank hi
    exact exec_first_false_param hpost (by simp [hn]) (by simp [hk])

/-! ### The first register, key or slot that is not valid -/

/-- R31, R530 item 6: the first clause of O49. -/
theorem exec_first_unreadable {i : Instr} {s : State} {pre post : List RegOperand} {o : RegOperand}
    (hparams : ∀ p ∈ neededParams i, p.Holds s) (hcsr : ∀ a c, i = .csrw a c → c < 10)
    (hi : readOperands i = pre ++ o :: post) (hpre : ∀ q ∈ pre, q.Readable s) (ho : ¬ o.Readable s) :
    exec i s = raise s ⟨.uninit, o.info⟩ := by
  obtain ⟨r, hexec, hreads⟩ := exec_checks_in_order i s
  rw [hexec, checkParams_of_holds hparams]
  exact (hi ▸ hreads hcsr).first_unreadable hpre ho

section
variable {i : Instr} {s : State}

namespace OperandsOk
variable (h : OperandsOk i s)
include h

/-! What an instruction whose operands are in order finds, in the spelling of the checks. -/

theorem param {p : ParamPred} (hp : p ∈ neededParams i) : p.ok s = true := ParamPred.ok_iff.mpr (h.params p hp)

theorem ring (hi : needsRank i = true) : s.ringOk = true := by
  obtain ⟨post, hpost⟩ := neededParams_of_needsRank hi
  have hn : s.nOk = true := h.param (p := .n) (by simp [hpost])
  have hk : s.kOk = true := h.param (p := .k) (by simp [hpost])
  exact ringOk_of_params hn hk

theorem readS {a : SIdx} (ha : .s a ∈ readOperands i) : ∃ v, s.getS a = some v :=
  readableS_iff.mp (h.readable _ ha)

theorem readP {a : PIdx} (ha : .p a ∈ readOperands i) : ∃ x, s.pRegs[a] = some x ∧ x.deg = s.ringN := by
  obtain ⟨x, hx⟩ := readableP_iff.mp (h.readable _ ha)
  exact ⟨x, hx, (fitsP_iff hx).mp (h.tags _ ha)⟩

theorem readL {a : LIdx} (ha : .l a ∈ readOperands i) :
    ∃ x, s.lRegs[a] = some x ∧ ∀ d, wantedDim i s = some d → x.dim = d := by
  obtain ⟨x, hx⟩ := readableL_iff.mp (h.readable _ ha)
  exact ⟨x, hx, fun d hd => (fitsL_iff hx hd).mp (h.tags _ ha)⟩

theorem readR {a : RIdx} (ha : .r a ∈ readOperands i) :
    ∃ x, s.rRegs[a] = some x ∧ x.deg = s.ringN ∧ x.k = s.rankK := by
  obtain ⟨x, hx⟩ := readableR_iff.mp (h.readable _ ha)
  exact ⟨x, hx, (fitsR_iff hx).mp (h.tags _ ha)⟩

end OperandsOk

/-- R350: the selection's predicate holds. -/
def selOk (s : State) : KeySel → Prop
  | .lwe => s.lweOk = true
  | .ext => s.ringOk = true

theorem needSel_ok {sel : KeySel} (h : selOk s sel) (k : Unit → Result) : needSel s sel k = k () := by
  cases sel with
  | lwe => exact needSel_lwe h k
  | ext => exact needSel_ext h k

theorem withKeyR_none (h : s.keyR = none) (k : KeyR → Result) : withKeyR s k = raise s (.uninit .keyR 0) := by
  simp only [withKeyR, h]

section
variable {sel : KeySel} (hsel : selOk s sel) (hkey : selKey s sel = none)
include hsel hkey

theorem lweEnc_key_invalid (d : LIdx) {a : SIdx} (ha : ∃ v, s.getS a = some v) :
    lweEnc sel d a s = raise s (.uninit (selFile sel) 0) := by
  obtain ⟨v, hv⟩ := ha
  rw [lweEnc, needSel_ok hsel, withS_some hv, withKey_none hkey]

/-- R361: the key's valid bit is checked before the sample's dimension. -/
theorem lweDec_key_invalid (d : SIdx) {a : LIdx} {b : SIdx} (ha : ∃ x, s.lRegs[a] = some x)
    (hb : ∃ v, s.getS b = some v) : lweDec sel d a b s = raise s (.uninit (selFile sel) 0) := by
  obtain ⟨x, hx⟩ := ha
  obtain ⟨v, hv⟩ := hb
  rw [lweDec, needSel_ok hsel, withL_some hx, withS_some hv, withKey_none hkey]

/-- R362: the key's valid bit is checked before the sample's dimension. -/
theorem lwePhase_key_invalid (d : SIdx) {a : LIdx} (ha : ∃ x, s.lRegs[a] = some x) :
    lwePhase sel d a s = raise s (.uninit (selFile sel) 0) := by
  obtain ⟨x, hx⟩ := ha
  rw [lwePhase, needSel_ok hsel, withL_some hx, withKey_none hkey]

end

/-- R39, R530 item 7: the instructions that use KEYL. -/
theorem exec_keyL_invalid (h : OperandsOk i s) (hi : readsKeyL i = true) (hkey : s.keyL = none) :
    exec i s = raise s (.uninit .keyL 0) := by
  have hnone : selKey s .lwe = none := by simp [selKey, hkey]
  have hlwe (hp : .lwe ∈ neededParams i) : selOk s .lwe := h.param (p := .lwe) hp
  cases i with
  | lEnc => exact lweEnc_key_invalid (hlwe (.head _)) hnone _ (h.readS (.head _))
  | lDec =>
    have ⟨x, hx, _⟩ := h.readL (.head _)
    exact lweDec_key_invalid (hlwe (.head _)) hnone _ ⟨x, hx⟩ (h.readS (.tail _ (.head _)))
  | lPhase =>
    have ⟨x, hx, _⟩ := h.readL (.head _)
    exact lwePhase_key_invalid (hlwe (.head _)) hnone _ ⟨x, hx⟩
  | _ => cases hi

/-- R40, R530 item 7: the instructions that use KEYR, whole or extracted. -/
theorem exec_keyR_invalid (h : OperandsOk i s) (hi : readsKeyR i = true) (hkey : s.keyR = none) :
    exec i s = raise s (.uninit .keyR 0) := by
  have hnone : selKey s .ext = none := by simp [selKey, hkey]
  have hring (hi : needsRank i = true) : selOk s .ext := h.ring hi
  cases i with
  | lEncX => exact lweEnc_key_invalid (hring rfl) hnone _ (h.readS (.head _))
  | lDecX =>
    have ⟨x, hx, _⟩ := h.readL (.head _)
    exact lweDec_key_invalid (hring rfl) hnone _ ⟨x, hx⟩ (h.readS (.tail _ (.head _)))
  | lPhaseX =>
    have ⟨x, hx, _⟩ := h.readL (.head _)
    exact lwePhase_key_invalid (hring rfl) hnone _ ⟨x, hx⟩
  | rEnc0 => exact (needRing_ok (h.ring rfl) _).trans (withKeyR_none hkey _)
  | rEnc =>
    obtain ⟨x, hx, hdeg⟩ := h.readP (.head _)
    show execREnc _ _ s = _
    rw [execREnc, needRing_ok (h.ring rfl), withP_some hx, tagP_ok hdeg, withKeyR_none hkey]
  | rPhase =>
    obtain ⟨x, hx, hdeg, hrank⟩ := h.readR (.head _)
    show execRPhase _ _ s = _
    rw [execRPhase, needRing_ok (h.ring rfl), withR_some hx, tagR_ok hdeg hrank,
      withKeyR_none hkey]
  | gEnc =>
    obtain ⟨slot, hslot⟩ := h.readS (.head _)
    obtain ⟨m, hm⟩ := h.readS (.tail _ (.head _))
    show execGEnc _ _ s = _
    rw [execGEnc, needRing_ok (h.ring rfl),
      needGad_ok (h.param (p := .gad) (by simp [neededParams])), withS_some hslot, withS_some hm, withKeyR_none hkey]
  | _ => cases hi

/-- R480: with every check before the slots passed, the first slot that is not ready is the one that faults. -/
theorem needBoot_first_slot {ks : Bool} {a : LIdx} {b : SIdx} {c : LReg} {mu : Word} (hring : s.ringOk = true)
    (hlwe : s.lweOk = true) (hgad : s.gadOk = true) (hks : ks = true → s.ksOk = true) (hfit : s.bkFit = true)
    (ha : s.lRegs[a] = some c) (hb : s.getS b = some mu) (hdim : c.dim = s.lweN) {m : Nat} (hm : m < s.lweN)
    (hpre : ∀ j, j < m → ∃ g, s.getBk j = some g ∧ bkFits s g = true) {x : Exc} (hx : slotFault s m = some x)
    (k : LReg → Word → Result) : needBoot s ks a b k = raise s x := by
  have hks' : (!ks || s.ksOk) = true := by cases ks <;> simp_all
  rw [needBoot, needRing_ok hring, needLwe_ok hlwe, needGad_ok hgad, need_true hks', needBkFit_ok hfit,
    withL_some ha, withS_some hb, tagL_ok hdim, needSlots_first hm hpre hx]

/-- R480 item 4: the instructions that use every slot below LWE_N. -/
theorem exec_first_slot (h : OperandsOk i s) (hi : usesAllSlots i = true) {m : Nat} (hm : m < s.lweN)
    (hpre : ∀ j, j < m → ∃ g, s.getBk j = some g ∧ bkFits s g = true) {x : Exc} (hx : slotFault s m = some x) :
    exec i s = raise s x := by
  have hparam (p : ParamPred) (hp : p ∈ neededParams i) : p.ok s = true := h.param hp
  cases i with
  | brRot | bootNks =>
    obtain ⟨c, hc, hdim⟩ := h.readL (.head _)
    obtain ⟨mu, hmu⟩ := h.readS (.tail _ (.head _))
    exact needBoot_first_slot (h.ring rfl) (hparam .lwe (by simp [neededParams]))
      (hparam .gad (by simp [neededParams])) (fun hks => by cases hks) (hparam .bkFit (by simp [neededParams]))
      hc hmu (hdim _ rfl) hm hpre hx _
  | boot =>
    obtain ⟨c, hc, hdim⟩ := h.readL (.head _)
    obtain ⟨mu, hmu⟩ := h.readS (.tail _ (.head _))
    exact needBoot_first_slot (h.ring rfl) (hparam .lwe (by simp [neededParams]))
      (hparam .gad (by simp [neededParams])) (fun _ => hparam .ks (by simp [neededParams]))
      (hparam .bkFit (by simp [neededParams])) hc hmu (hdim _ rfl) hm hpre hx _
  | _ => cases hi

end

/-- Settles O49: the first unreadable register of the list of checks; then the keys, and the slots. -/
theorem uninitialisedOperandsFault : Obligations.UninitialisedOperandsFault := by
  refine ⟨fun i s pre post o hparams hcsr hi hpre ho => exec_first_unreadable hparams hcsr hi hpre ho,
    fun i s h => ⟨exec_keyL_invalid h, exec_keyR_invalid h, fun m hi hm hpre hnone => ?_⟩⟩
  have hx : slotFault s m = some (.uninit .bk m) := by simp [slotFault, hnone]
  exact exec_first_slot h hi hm hpre hx

end Sys2Proof.Machine
end

section
/-! PROOF of O56: which instructions depend on a key's contents (R39, R40, R535). Two runs are compared, one of them
with the keys replaced. One rule for each check and read says that the two runs take the same path; only the reads of
a key ask that the key be the same. What is written at the end is written alike in both. -/

namespace Sys2Proof.Machine

/-- The state with other keys. -/
def State.withKeys (s : State) (xl : Option KeyL) (xr : Option KeyR) : State := { s with keyL := xl, keyR := xr }

/-- `r'` answers what `r` does, with the keys replaced. -/
structure Rekeyed (xl : Option KeyL) (xr : Option KeyR) (r r' : Result) : Prop where
  next : ∀ t, r = .next t → r' = .next (t.withKeys xl xr)

/-! ### What does not see the keys -/

theorem setS_withKeys (s : State) (xl : Option KeyL) (xr : Option KeyR) (d : SIdx) (v : Word) :
    (s.withKeys xl xr).setS d v = (s.setS d v).withKeys xl xr := by
  unfold State.setS; split <;> rfl

theorem setPs_withKeys (cs : List (List Word)) (s : State) (xl : Option KeyL) (xr : Option KeyR) (d : Nat) :
    (s.withKeys xl xr).setPs d cs = (s.setPs d cs).withKeys xl xr := by
  induction cs generalizing s d with
  | nil => rfl
  | cons c cs ih =>
    unfold State.setPs
    split
    · exact ih (s.setP _ c) _
    · rfl

theorem dimOf_withKeys (s : State) (xl : Option KeyL) (xr : Option KeyR) (sel : KeySel) :
    dimOf (s.withKeys xl xr) sel = dimOf s sel := by
  cases sel <;> rfl

/-- R53: KEYSTAT shows the valid bits, and no other CSR shows anything of a key. -/
theorem csrRead_withKeys {s : State} {xl : Option KeyL} {xr : Option KeyR} (hl : xl.isSome = s.keyL.isSome)
    (hr : xr.isSome = s.keyR.isSome) (c : Nat) : csrRead (s.withKeys xl xr) c = csrRead s c := by
  have hstat : csrKeyStat (s.withKeys xl xr) = csrKeyStat s := by simp only [csrKeyStat, State.withKeys, hl, hr]
  unfold csrRead
  rw [hstat]
  rfl

/-! ### Outcomes -/

section
variable {s : State} {xl : Option KeyL} {xr : Option KeyR}

theorem next_rekeyed {t t' : State} (h : t' = t.withKeys xl xr) : Rekeyed xl xr (.next t) (.next t') where
  next u hu := by
    cases hu
    rw [h]

theorem done_rekeyed {t t' : State} (h : t' = t.withKeys xl xr) : Rekeyed xl xr (done t) (done t') :=
  next_rekeyed (congrArg State.advance h)

theorem raise_rekeyed (x : Exc) : Rekeyed xl xr (raise s x) (raise (s.withKeys xl xr) x) := next_rekeyed rfl

/-! ### Checks -/

theorem need_rekeyed {c : Bool} {x : Exc} {k k' : Unit → Result} (h : Rekeyed xl xr (k ()) (k' ())) :
    Rekeyed xl xr (need s c x k) (need (s.withKeys xl xr) c x k') := by
  cases c with
  | true => exact h
  | false => exact raise_rekeyed x

/-! The named checks are this one, some of them twice. -/

section
variable {k k' : Unit → Result} (h : Rekeyed xl xr (k ()) (k' ()))
include h

theorem needN_rekeyed : Rekeyed xl xr (needN s k) (needN (s.withKeys xl xr) k') := need_rekeyed h

theorem needRing_rekeyed : Rekeyed xl xr (needRing s k) (needRing (s.withKeys xl xr) k') :=
  need_rekeyed (need_rekeyed h)

theorem needLwe_rekeyed : Rekeyed xl xr (needLwe s k) (needLwe (s.withKeys xl xr) k') := need_rekeyed h

theorem needGad_rekeyed : Rekeyed xl xr (needGad s k) (needGad (s.withKeys xl xr) k') := need_rekeyed h

theorem needKs_rekeyed : Rekeyed xl xr (needKs s k) (needKs (s.withKeys xl xr) k') := need_rekeyed h

theorem needBkFit_rekeyed : Rekeyed xl xr (needBkFit s k) (needBkFit (s.withKeys xl xr) k') := need_rekeyed h

theorem needSel_rekeyed {sel : KeySel} : Rekeyed xl xr (needSel s sel k) (needSel (s.withKeys xl xr) sel k') := by
  cases sel with
  | lwe => exact needLwe_rekeyed h
  | ext => exact needRing_rekeyed h

theorem tagP_rekeyed {a : PIdx} {x : PReg} :
    Rekeyed xl xr (tagP s a x k) (tagP (s.withKeys xl xr) a x k') := need_rekeyed h

theorem tagF_rekeyed {a : FIdx} {x : FReg} :
    Rekeyed xl xr (tagF s a x k) (tagF (s.withKeys xl xr) a x k') := need_rekeyed h

theorem tagL_rekeyed {a : LIdx} {x : LReg} {d : Nat} :
    Rekeyed xl xr (tagL s a x d k) (tagL (s.withKeys xl xr) a x d k') := need_rekeyed h

theorem tagR_rekeyed {a : RIdx} {x : RReg} :
    Rekeyed xl xr (tagR s a x k) (tagR (s.withKeys xl xr) a x k') := need_rekeyed h

theorem tagKey_rekeyed {sel : KeySel} {fits : Bool} :
    Rekeyed xl xr (tagKey s sel fits k) (tagKey (s.withKeys xl xr) sel fits k') := need_rekeyed h

theorem needModulus_rekeyed {m : Word} :
    Rekeyed xl xr (needModulus s m k) (needModulus (s.withKeys xl xr) m k') := need_rekeyed h

theorem needBelow_rekeyed {v : Word} {lim : Nat} :
    Rekeyed xl xr (needBelow s v lim k) (needBelow (s.withKeys xl xr) v lim k') := need_rekeyed h

theorem needSpan_rekeyed {ea : Word} {bytes : Nat} :
    Rekeyed xl xr (needSpan s ea bytes k) (needSpan (s.withKeys xl xr) ea bytes k') :=
  need_rekeyed (need_rekeyed h)

theorem needKsk_rekeyed : Rekeyed xl xr (needKsk s k) (needKsk (s.withKeys xl xr) k') := needSpan_rekeyed h

end

/-! ### Reads -/

theorem withS_rekeyed {a : SIdx} {k k' : Word → Result} (h : ∀ v, Rekeyed xl xr (k v) (k' v)) :
    Rekeyed xl xr (withS s a k) (withS (s.withKeys xl xr) a k') := by
  cases hget : s.getS a with
  | some v => rw [withS_some hget, withS_some (s := s.withKeys xl xr) hget]; exact h v
  | none => rw [withS_none hget, withS_none (s := s.withKeys xl xr) hget]; exact raise_rekeyed _

theorem withP_rekeyed {a : PIdx} {k k' : PReg → Result} (h : ∀ x, Rekeyed xl xr (k x) (k' x)) :
    Rekeyed xl xr (withP s a k) (withP (s.withKeys xl xr) a k') := by
  cases hget : s.pRegs[a] with
  | some x => rw [withP_some hget, withP_some (s := s.withKeys xl xr) hget]; exact h x
  | none => rw [withP_none hget, withP_none (s := s.withKeys xl xr) hget]; exact raise_rekeyed _

theorem withF_rekeyed {a : FIdx} {k k' : FReg → Result} (h : ∀ x, Rekeyed xl xr (k x) (k' x)) :
    Rekeyed xl xr (withF s a k) (withF (s.withKeys xl xr) a k') := by
  cases hget : s.fRegs[a] with
  | some x => rw [withF_some hget, withF_some (s := s.withKeys xl xr) hget]; exact h x
  | none => rw [withF_none hget, withF_none (s := s.withKeys xl xr) hget]; exact raise_rekeyed _

theorem withL_rekeyed {a : LIdx} {k k' : LReg → Result} (h : ∀ x, Rekeyed xl xr (k x) (k' x)) :
    Rekeyed xl xr (withL s a k) (withL (s.withKeys xl xr) a k') := by
  cases hget : s.lRegs[a] with
  | some x => rw [withL_some hget, withL_some (s := s.withKeys xl xr) hget]; exact h x
  | none => rw [withL_none hget, withL_none (s := s.withKeys xl xr) hget]; exact raise_rekeyed _

theorem withR_rekeyed {a : RIdx} {k k' : RReg → Result} (h : ∀ x, Rekeyed xl xr (k x) (k' x)) :
    Rekeyed xl xr (withR s a k) (withR (s.withKeys xl xr) a k') := by
  cases hget : s.rRegs[a] with
  | some x => rw [withR_some hget, withR_some (s := s.withKeys xl xr) hget]; exact h x
  | none => rw [withR_none hget, withR_none (s := s.withKeys xl xr) hget]; exact raise_rekeyed _

/-- R350: the selected key is the same in both runs. -/
theorem withKey_rekeyed {sel : KeySel} (hkey : selKey (s.withKeys xl xr) sel = selKey s sel)
    {k k' : List Bool → Bool → Result} (h : ∀ bits fits, Rekeyed xl xr (k bits fits) (k' bits fits)) :
    Rekeyed xl xr (withKey s sel k) (withKey (s.withKeys xl xr) sel k') := by
  cases hget : selKey s sel with
  | some x => rw [withKey_some hget, withKey_some (hkey.trans hget)]; exact h x.1 x.2
  | none => rw [withKey_none hget, withKey_none (hkey.trans hget)]; exact raise_rekeyed _

/-- R390: KEYR is the same in both runs. -/
theorem withKeyR_rekeyed (hkey : xr = s.keyR) {k k' : KeyR → Result} (h : ∀ x, Rekeyed xl xr (k x) (k' x)) :
    Rekeyed xl xr (withKeyR s k) (withKeyR (s.withKeys xl xr) k') := by
  have hget : (s.withKeys xl xr).keyR = s.keyR := hkey
  unfold withKeyR
  rw [hget]
  cases s.keyR with
  | some x => exact need_rekeyed (h x)
  | none => exact raise_rekeyed _

theorem needSlots_rekeyed {n : Nat} {k k' : Unit → Result} (h : Rekeyed xl xr (k ()) (k' ())) :
    Rekeyed xl xr (needSlots s n k) (needSlots (s.withKeys xl xr) n k') := by
  have hfault : slotFault (s.withKeys xl xr) = slotFault s := rfl
  unfold needSlots
  rw [hfault]
  cases (List.range n).findSome? (slotFault s) with
  | some x => exact raise_rekeyed x
  | none => exact h

theorem withSlot_rekeyed {slot : Nat} {k k' : Rgsw → Result} (h : ∀ g, Rekeyed xl xr (k g) (k' g)) :
    Rekeyed xl xr (withSlot s slot k) (withSlot (s.withKeys xl xr) slot k') := by
  have hget : (s.withKeys xl xr).getBk slot = s.getBk slot := rfl
  unfold withSlot
  rw [hget]
  cases s.getBk slot with
  | some g => exact need_rekeyed (h g)
  | none => exact raise_rekeyed _

theorem needBoot_rekeyed {ks : Bool} {a : LIdx} {b : SIdx} {k k' : LReg → Word → Result}
    (h : ∀ c mu, Rekeyed xl xr (k c mu) (k' c mu)) :
    Rekeyed xl xr (needBoot s ks a b k) (needBoot (s.withKeys xl xr) ks a b k') :=
  needRing_rekeyed <| needLwe_rekeyed <| needGad_rekeyed <| need_rekeyed <| needBkFit_rekeyed <|
    withL_rekeyed fun c => withS_rekeyed fun mu => tagL_rekeyed <| needSlots_rekeyed (h c mu)

/-! ### The shapes that several instructions share -/

theorem scalarBin_rekeyed (f : Word → Word → Word) (d a b : SIdx) :
    Rekeyed xl xr (scalarBin f d a b s) (scalarBin f d a b (s.withKeys xl xr)) :=
  withS_rekeyed fun _ => withS_rekeyed fun _ => done_rekeyed (setS_withKeys ..)

theorem branch_rekeyed (cond : Word → Word → Bool) (a b : SIdx) (imm : Word) :
    Rekeyed xl xr (branch cond a b imm s) (branch cond a b imm (s.withKeys xl xr)) := by
  refine withS_rekeyed fun x => withS_rekeyed fun y => ?_
  cases cond x y with
  | true => exact next_rekeyed rfl
  | false => exact done_rekeyed rfl

theorem polyBin_rekeyed (f : Word → Word → Word) (d a b : PIdx) :
    Rekeyed xl xr (polyBin f d a b s) (polyBin f d a b (s.withKeys xl xr)) :=
  needN_rekeyed <| withP_rekeyed fun _ => withP_rekeyed fun _ => tagP_rekeyed <| tagP_rekeyed <| done_rekeyed rfl

theorem polyMono_rekeyed (f : Nat → List Word → List Word) (d a : PIdx) (b : SIdx) :
    Rekeyed xl xr (polyMono f d a b s) (polyMono f d a b (s.withKeys xl xr)) :=
  needN_rekeyed <| withP_rekeyed fun _ => withS_rekeyed fun _ => tagP_rekeyed <| needBelow_rekeyed <| done_rekeyed rfl

theorem forward_rekeyed (cls : List Int → ErrClass) (d : FIdx) (a : PIdx) :
    Rekeyed xl xr (forward cls d a s) (forward cls d a (s.withKeys xl xr)) :=
  needN_rekeyed <| withP_rekeyed fun _ => tagP_rekeyed <| done_rekeyed rfl

section
variable {sel : KeySel} (hkey : selKey (s.withKeys xl xr) sel = selKey s sel)
include hkey

theorem lweEnc_rekeyed (d : LIdx) (a : SIdx) :
    Rekeyed xl xr (lweEnc sel d a s) (lweEnc sel d a (s.withKeys xl xr)) :=
  needSel_rekeyed <| withS_rekeyed fun _ => withKey_rekeyed hkey fun _ _ => tagKey_rekeyed <| done_rekeyed <| by
    cases sel <;> rfl

theorem lweDec_rekeyed (d : SIdx) (a : LIdx) (b : SIdx) :
    Rekeyed xl xr (lweDec sel d a b s) (lweDec sel d a b (s.withKeys xl xr)) := by
  refine needSel_rekeyed <| withL_rekeyed fun _ => withS_rekeyed fun _ => withKey_rekeyed hkey fun _ _ => ?_
  rw [dimOf_withKeys]
  exact tagL_rekeyed <| tagKey_rekeyed <| needModulus_rekeyed <| done_rekeyed (setS_withKeys ..)

theorem lwePhase_rekeyed (d : SIdx) (a : LIdx) :
    Rekeyed xl xr (lwePhase sel d a s) (lwePhase sel d a (s.withKeys xl xr)) := by
  refine needSel_rekeyed <| withL_rekeyed fun _ => withKey_rekeyed hkey fun _ _ => ?_
  rw [dimOf_withKeys]
  exact tagL_rekeyed <| tagKey_rekeyed <| done_rekeyed (setS_withKeys ..)

end

theorem lweTriv_rekeyed (sel : KeySel) (d : LIdx) (a : SIdx) :
    Rekeyed xl xr (lweTriv sel d a s) (lweTriv sel d a (s.withKeys xl xr)) :=
  needSel_rekeyed <| withS_rekeyed fun _ => done_rekeyed <| by cases sel <;> rfl

theorem lweAcc_rekeyed (f : LReg → LReg → LReg) (d a : LIdx) :
    Rekeyed xl xr (lweAcc f d a s) (lweAcc f d a (s.withKeys xl xr)) :=
  withL_rekeyed fun _ => withL_rekeyed fun _ => tagL_rekeyed <| done_rekeyed rfl

theorem lweAccMul_rekeyed (f : Word → LReg → LReg → LReg) (d a : LIdx) (b : SIdx) :
    Rekeyed xl xr (lweAccMul f d a b s) (lweAccMul f d a b (s.withKeys xl xr)) :=
  withL_rekeyed fun _ => withS_rekeyed fun _ => withL_rekeyed fun _ => tagL_rekeyed <| done_rekeyed rfl

theorem lweLoad_rekeyed (sel : KeySel) (d : LIdx) (a : SIdx) (imm : Word) :
    Rekeyed xl xr (lweLoad sel d a imm s) (lweLoad sel d a imm (s.withKeys xl xr)) := by
  refine needSel_rekeyed <| withS_rekeyed fun _ => ?_
  rw [dimOf_withKeys]
  exact needSpan_rekeyed <| done_rekeyed rfl

theorem rlweAcc_rekeyed (f : Word → Word → Word) (d a : RIdx) :
    Rekeyed xl xr (rlweAcc f d a s) (rlweAcc f d a (s.withKeys xl xr)) :=
  needRing_rekeyed <| withR_rekeyed fun _ => withR_rekeyed fun _ => tagR_rekeyed <| tagR_rekeyed <|
    done_rekeyed rfl

/-! ### Every instruction but the two that write a key -/

/-- R39, R40, R535: the two runs take the same path; a key that the rule reads is the same in both. -/
theorem exec_rekeyed (i : Instr) (hl : xl.isSome = s.keyL.isSome) (hr : xr.isSome = s.keyR.isSome)
    (hwl : writesKeyL i = false) (hwr : writesKeyR i = false) (hrl : readsKeyL i = true → xl = s.keyL)
    (hrr : readsKeyR i = true → xr = s.keyR) : Rekeyed xl xr (exec i s) (exec i (s.withKeys xl xr)) := by
  have hlwe (h : readsKeyL i = true) : selKey (s.withKeys xl xr) .lwe = selKey s .lwe :=
    congrArg (Option.map fun x : KeyL => (x.s, x.dim == s.lweN)) (hrl h)
  have hext (h : readsKeyR i = true) : selKey (s.withKeys xl xr) .ext = selKey s .ext :=
    congrArg (Option.map fun x : KeyR => (extractedKey x, x.deg == s.ringN && x.k == s.rankK)) (hrr h)
  unfold exec
  cases i with
  -- system, scalar and control (40_sequencer.md)
  | nop => exact done_rekeyed rfl
  | halt => exact next_rekeyed rfl
  | csrr d c =>
    show Rekeyed xl xr (execCsrr d c s) (execCsrr d c (s.withKeys xl xr))
    unfold execCsrr
    rw [csrRead_withKeys hl hr]
    cases csrRead s c with
    | some v => exact done_rekeyed (setS_withKeys ..)
    | none => exact raise_rekeyed _
  | csrw => exact need_rekeyed <| withS_rekeyed fun _ => done_rekeyed rfl
  | sLi => exact done_rekeyed (setS_withKeys ..)
  | sAddi => exact withS_rekeyed fun _ => done_rekeyed (setS_withKeys ..)
  | sAdd | sSub | sMul | sAnd | sSll | sSrl => exact scalarBin_rekeyed ..
  | sLw =>
    exact withS_rekeyed fun _ => needSpan_rekeyed <| done_rekeyed (setS_withKeys (s.afterLoad _ _) ..)
  | sSw => exact withS_rekeyed fun _ => withS_rekeyed fun _ => needSpan_rekeyed <| done_rekeyed rfl
  | beq | bne | blt | bltu => exact branch_rekeyed ..
  | jmp => exact next_rekeyed rfl
  | jal => exact next_rekeyed (congrArg (State.jump · _) (setS_withKeys ..))
  | jr => exact withS_rekeyed fun _ => next_rekeyed rfl
  -- torus scalar (41_torus.md)
  | mswF | aphase =>
    exact withS_rekeyed fun _ => withS_rekeyed fun _ => needModulus_rekeyed <| done_rekeyed (setS_withKeys ..)
  | mswT =>
    exact withS_rekeyed fun _ => withS_rekeyed fun _ => needModulus_rekeyed <| needBelow_rekeyed <|
      done_rekeyed (setS_withKeys ..)
  | gauss => exact withS_rekeyed fun _ => done_rekeyed (congrArg (State.bump · 1) (setS_withKeys ..))
  -- polynomial ring (42_polynomial.md)
  | pClr => exact needN_rekeyed <| done_rekeyed rfl
  | pAdd | pSub => exact polyBin_rekeyed ..
  | pAddmulz =>
    exact needN_rekeyed <| withP_rekeyed fun _ => withS_rekeyed fun _ => withP_rekeyed fun _ => tagP_rekeyed <|
      tagP_rekeyed <| done_rekeyed rfl
  | pMulxai | pMulxaim1 => exact polyMono_rekeyed ..
  | pMulfft =>
    exact needN_rekeyed <| withP_rekeyed fun _ => withP_rekeyed fun _ => tagP_rekeyed <| tagP_rekeyed <|
      done_rekeyed rfl
  | pLd => exact needN_rekeyed <| withS_rekeyed fun _ => needSpan_rekeyed <| done_rekeyed rfl
  | pSt =>
    exact needN_rekeyed <| withS_rekeyed fun _ => withP_rekeyed fun _ => tagP_rekeyed <| needSpan_rekeyed <|
      done_rekeyed rfl
  -- FFT engine (43_fft.md)
  | fClr => exact needN_rekeyed <| done_rekeyed rfl
  | fFwdi | fFwdt => exact forward_rekeyed ..
  | fInv => exact needN_rekeyed <| withF_rekeyed fun _ => tagF_rekeyed <| done_rekeyed rfl
  | fMuladd =>
    exact needN_rekeyed <| withF_rekeyed fun _ => withF_rekeyed fun _ => withF_rekeyed fun _ => tagF_rekeyed <|
      tagF_rekeyed <| tagF_rekeyed <| done_rekeyed rfl
  | fMono => exact needN_rekeyed <| withS_rekeyed fun _ => needBelow_rekeyed <| done_rekeyed rfl
  -- LWE (44_lwe.md)
  | lEnc => exact lweEnc_rekeyed (hlwe rfl) ..
  | lEncX => exact lweEnc_rekeyed (hext rfl) ..
  | lDec => exact lweDec_rekeyed (hlwe rfl) ..
  | lDecX => exact lweDec_rekeyed (hext rfl) ..
  | lPhase => exact lwePhase_rekeyed (hlwe rfl) ..
  | lPhaseX => exact lwePhase_rekeyed (hext rfl) ..
  | lTriv | lTrivX => exact lweTriv_rekeyed ..
  | lAdd | lSub => exact lweAcc_rekeyed ..
  | lAddmul | lSubmul => exact lweAccMul_rekeyed ..
  | lNeg | lCopy => exact withL_rekeyed fun _ => done_rekeyed rfl
  | lLd | lLdX => exact lweLoad_rekeyed ..
  | lSt => exact withS_rekeyed fun _ => withL_rekeyed fun _ => needSpan_rekeyed <| done_rekeyed rfl
  | keyLdl => cases hwl
  -- RLWE (45_rlwe.md)
  | rEnc0 => exact needRing_rekeyed <| withKeyR_rekeyed (hrr rfl) fun _ => done_rekeyed rfl
  | rEnc =>
    exact needRing_rekeyed <| withP_rekeyed fun _ => tagP_rekeyed <|
      withKeyR_rekeyed (hrr rfl) fun _ => done_rekeyed rfl
  | rPhase =>
    exact needRing_rekeyed <| withR_rekeyed fun _ => tagR_rekeyed <|
      withKeyR_rekeyed (hrr rfl) fun _ => done_rekeyed rfl
  | rTriv => exact needRing_rekeyed <| withP_rekeyed fun _ => tagP_rekeyed <| done_rekeyed rfl
  | rAdd | rSub => exact rlweAcc_rekeyed ..
  | rAddmulr =>
    exact needRing_rekeyed <| withP_rekeyed fun _ => withR_rekeyed fun _ => withR_rekeyed fun _ =>
      tagP_rekeyed <| tagR_rekeyed <| tagR_rekeyed <| done_rekeyed rfl
  | rMulxaim1 | rExtract =>
    exact needRing_rekeyed <| withR_rekeyed fun _ => withS_rekeyed fun _ => tagR_rekeyed <|
      needBelow_rekeyed <| done_rekeyed rfl
  | rLd =>
    exact needRing_rekeyed <| withS_rekeyed fun _ => needSpan_rekeyed <| done_rekeyed rfl
  | rSt =>
    exact needRing_rekeyed <| withS_rekeyed fun _ => withR_rekeyed fun _ => tagR_rekeyed <|
      needSpan_rekeyed <| done_rekeyed rfl
  | keyLdr => cases hwr
  -- RGSW (46_rgsw.md)
  | gDecomp =>
    exact needN_rekeyed <| needGad_rekeyed <| withP_rekeyed fun _ => tagP_rekeyed <| need_rekeyed <|
      done_rekeyed (setPs_withKeys ..)
  | gEnc =>
    exact needRing_rekeyed <| needGad_rekeyed <| withS_rekeyed fun _ => withS_rekeyed fun _ =>
      withKeyR_rekeyed (hrr rfl) fun _ => needBelow_rekeyed <| done_rekeyed rfl
  | gLd =>
    exact needRing_rekeyed <| needGad_rekeyed <| withS_rekeyed fun _ => withS_rekeyed fun _ =>
      needBelow_rekeyed <| needSpan_rekeyed <| done_rekeyed rfl
  | gExtprod =>
    exact needRing_rekeyed <| needGad_rekeyed <| withR_rekeyed fun _ => withS_rekeyed fun _ =>
      tagR_rekeyed <| needBelow_rekeyed <| withSlot_rekeyed fun _ => done_rekeyed rfl
  -- key switching and bootstrapping (47_keyswitch.md, 48_bootstrap.md)
  | ks =>
    exact needRing_rekeyed <| needLwe_rekeyed <| needKs_rekeyed <| withL_rekeyed fun _ => tagL_rekeyed <|
      needKsk_rekeyed <| done_rekeyed rfl
  | brRot | bootNks => exact needBoot_rekeyed fun _ _ => done_rekeyed rfl
  | boot => exact needBoot_rekeyed fun _ _ => needKsk_rekeyed <| done_rekeyed rfl

end

/-- Settles O56: the run with the keys replaced. -/
theorem onlyKeyInstructionsReadKeys : Obligations.OnlyKeyInstructionsReadKeys :=
  fun i _ t _ _ hl hr hwl hwr hrl hrr ht => (exec_rekeyed i hl hr hwl hwr hrl hrr).next t ht

end Sys2Proof.Machine
end

section
/-! PROOF of O8, O57 and O58: what the CSRs read (R50 to R54), the values after reset (R75) and host writes of CTRL
(R61, R542). -/

open scoped BigOperators

namespace Sys2Proof.Machine

/-! ### The CSR space -/

/-- R50: the listed numbers are those of the three tables. -/
theorem csrRead_eq_none_iff (s : State) (c : Nat) : csrRead s c = none ↔
    c ∉ [0x000, 0x001, 0x002, 0x003, 0x004, 0x005, 0x006, 0x007, 0x008, 0x009,
      0x010, 0x011, 0x012, 0x013, 0x014, 0x015, 0x016, 0x017, 0x018,
      0x0F0, 0x0F1, 0x0F2, 0x0F3, 0x0F4, 0x0F5, 0x0F6] := by
  unfold csrRead
  split <;> simp_all

/-- R53 BG − 1, also where BG itself is 0 because Bgbit = 32. -/
theorem csrBg_sub_one (s : State) : csrBg s - 1 = BitVec.ofNat 32 (2 ^ s.gadBits - 1) := by
  have hpos : 1 ≤ 2 ^ s.gadBits := Nat.one_le_two_pow
  have hadd : BitVec.ofNat 32 (2 ^ s.gadBits) = BitVec.ofNat 32 (2 ^ s.gadBits - 1) + BitVec.ofNat 32 1 := by
    rw [← BitVec.ofNat_add, Nat.sub_add_cancel hpos]
  rw [csrBg, hadd]
  exact BitVec.add_sub_cancel ..

/-- R53 CFG_VALID: each bit is its flag. -/
theorem six_flags (b0 b1 b2 b3 b4 b5 : Bool) :
    let v := BitVec.ofNat 32 (b0.toNat + 2 * b1.toNat + 4 * b2.toNat + 8 * b3.toNat + 16 * b4.toNat + 32 * b5.toNat)
    v.getLsbD 0 = b0 ∧ v.getLsbD 1 = b1 ∧ v.getLsbD 2 = b2 ∧ v.getLsbD 3 = b3 ∧ v.getLsbD 4 = b4 ∧
      v.getLsbD 5 = b5 ∧ v.toNat < 64 := by
  revert b0 b1 b2 b3 b4 b5
  decide

/-- R53 KEYSTAT: each bit is its flag. -/
theorem two_flags (b0 b1 : Bool) :
    let v := BitVec.ofNat 32 (b0.toNat + 2 * b1.toNat)
    v.getLsbD 0 = b0 ∧ v.getLsbD 1 = b1 ∧ v.toNat < 4 := by
  revert b0 b1
  decide

/-- R53: the CSRs of the gadget while GAD_OK holds. -/
theorem csrRead_gadget {s : State} (h : s.gadOk = true) :
    csrRead s 0x010 = some (BitVec.ofNat 32 (2 ^ s.gadBits)) ∧
    csrRead s 0x011 = some (BitVec.ofNat 32 (2 ^ (s.gadBits - 1))) ∧
    csrRead s 0x012 = some (BitVec.ofNat 32 (2 ^ s.gadBits - 1)) ∧
    csrRead s 0x013 = some (BitVec.ofNat 32
      (2 ^ (s.gadBits - 1) * ∑ j ∈ Finset.range s.gadL, 2 ^ (32 - (j + 1) * s.gadBits))) := by
  rw [← csrBg_sub_one]
  simp only [csrRead, h, csrIf, if_true]
  exact ⟨rfl, trivial, trivial, rfl⟩

/-- Settles O8: the tables of R51, R53 and R54, read off the definition, and the flags of CFG_VALID and KEYSTAT. -/
theorem derivedCsrValues : Obligations.DerivedCsrValues := by
  intro s
  refine ⟨csrRead_eq_none_iff s, ⟨rfl, rfl, rfl, rfl, rfl, rfl, rfl, rfl, rfl, rfl⟩,
    ⟨rfl, rfl, rfl, rfl, rfl, rfl, rfl⟩, csrRead_gadget, fun h => ?_, rfl, rfl, rfl, ⟨_, rfl, six_flags ..⟩,
    ⟨_, rfl, two_flags ..⟩⟩
  simp [csrRead, h, csrIf]

/-! ### Reset -/

/-- R75: every register but S0 is invalid. -/
theorem powerOn_registers (p : Params) :
    (∀ i : SIdx, i ≠ 0 → (State.powerOn p).getS i = none) ∧ (∀ i : PIdx, (State.powerOn p).pRegs[i] = none) ∧
    (∀ i : FIdx, (State.powerOn p).fRegs[i] = none) ∧ (∀ i : LIdx, (State.powerOn p).lRegs[i] = none) ∧
    (∀ i : RIdx, (State.powerOn p).rRegs[i] = none) := by
  refine ⟨fun i hi => ?_, ?_, ?_, ?_, ?_⟩
  · have hne : (0 : Nat) ≠ i.val := fun e => hi (Fin.ext e.symm)
    simp [State.getS, State.powerOn, hi, hne]
  all_goals simp [State.powerOn]

/-- R75: the derived CSRs of the parameter set after reset. -/
theorem reset_derivedCsrs :
    csrRead State.reset 0x010 = some 128 ∧ csrRead State.reset 0x011 = some 64 ∧
    csrRead State.reset 0x012 = some 0x7F ∧ csrRead State.reset 0x013 = some 0x81020000 ∧
    csrRead State.reset 0x014 = some 6 ∧ csrRead State.reset 0x015 = some 0x8000 ∧
    csrRead State.reset 0x016 = some 1024 ∧ csrRead State.reset 0x017 = some 0x3F ∧
    csrRead State.reset 0x018 = some 0 := by
  decide

/-- Settles O57: the table of R75 after power-on; and what a host reset keeps is what the statement sets aside. -/
theorem resetValues : Obligations.ResetValues := by
  refine ⟨fun s hs => ?_, fun s => ⟨_, rfl, rfl, rfl, rfl⟩⟩
  obtain rfl := List.mem_singleton.mp hs
  obtain ⟨hS, hP, hF, hL, hR⟩ := powerOn_registers Params.default
  obtain ⟨h10, h11, h12, h13, h14, h15, h16, h17, h18⟩ := reset_derivedCsrs
  exact ⟨rfl, hS, rfl, hP, hF, hL, hR, fun _ => rfl, rfl, rfl, rfl, rfl, h10, h11, h12, h13, h14, h15, h16, h17, h18,
    rfl, rfl, rfl, rfl, rfl, rfl, fun _ => rfl, fun _ => rfl⟩

/-! ### Host writes of CTRL -/

/-- R60, R116: offset 0x008 of the port is CTRL, in every STATE. -/
theorem portWrite_ctrl (s : State) (v : Word) : portWrite s 0x008 v = ctrlWrite s v := rfl

/-- Settles O58: the two bits of CTRL, and STATE where it matters. -/
theorem hostControlWrites : Obligations.HostControlWrites := by
  intro s v
  rw [portWrite_ctrl, ctrlWrite]
  refine ⟨fun h1 => ?_, fun h1 h0 hrun => ?_, fun h1 h0 hrun => ?_, fun h1 h0 => ?_⟩
  · exact if_pos h1
  · rw [h1, h0]; simp [hrun, State.start]
  · rw [h1, h0]; simp [hrun]
  · rw [h1, h0]; simp

end Sys2Proof.Machine
end

section
/-! PROOF of O50: stale tags and bad transfers (R34, R35, R37, R105, R106, R108, R350, R351, R581, in R530's order).
Between the predicates (`checkParams`) and the rest of a meaning stand the reads of its registers and then their tag
checks, in field order (`exec_tags_in_order`); the first stale tag is then the one that faults. Keys and slots follow the
shape of O49. A transfer is brought to its span check once (`exec_reaches_span`), which has both faults. -/

namespace Sys2Proof.Machine

/-! ### The tag checks in order -/

/-- R530 items 6 and 8: `r` reads the first list of registers, then checks the tags of the second, in order. Between
the two stand at most the valid bits of a key (R361, R362). -/
inductive TagsInOrder (i : Instr) (s : State) : List RegOperand → List RegOperand → Result → Prop where
  | nil {unread : List RegOperand} {r : Result} : TagsInOrder i s unread [] r
  | readS {j : SIdx} {unread os : List RegOperand} {k : Word → Result} :
    (∀ v, TagsInOrder i s unread os (k v)) → TagsInOrder i s (.s j :: unread) os (withS s j k)
  | readP {j : PIdx} {unread os : List RegOperand} {k : PReg → Result} :
    (∀ x, s.pRegs[j] = some x → TagsInOrder i s unread os (k x)) → TagsInOrder i s (.p j :: unread) os (withP s j k)
  | readF {j : FIdx} {unread os : List RegOperand} {k : FReg → Result} :
    (∀ x, s.fRegs[j] = some x → TagsInOrder i s unread os (k x)) → TagsInOrder i s (.f j :: unread) os (withF s j k)
  | readL {j : LIdx} {unread os : List RegOperand} {k : LReg → Result} :
    (∀ x, s.lRegs[j] = some x → TagsInOrder i s unread os (k x)) → TagsInOrder i s (.l j :: unread) os (withL s j k)
  | readR {j : RIdx} {unread os : List RegOperand} {k : RReg → Result} :
    (∀ x, s.rRegs[j] = some x → TagsInOrder i s unread os (k x)) → TagsInOrder i s (.r j :: unread) os (withR s j k)
  | key {sel : KeySel} {unread os : List RegOperand} {k : List Bool → Bool → Result} :
    selKey s sel ≠ none → (∀ bits fits, TagsInOrder i s unread os (k bits fits)) →
    TagsInOrder i s unread os (withKey s sel k)
  | skip {o : RegOperand} {unread os : List RegOperand} {r : Result} :
    o.Fits i s → TagsInOrder i s unread os r → TagsInOrder i s unread (o :: os) r
  | check {o : RegOperand} {unread os : List RegOperand} {c : Bool} {k : Unit → Result} :
    (c = true ↔ o.Fits i s) → TagsInOrder i s unread os (k ()) →
    TagsInOrder i s unread (o :: os) (need s c ⟨.paramMismatch, o.info⟩ k)

namespace TagsInOrder
variable {i : Instr} {s : State} {unread os : List RegOperand} {k : Unit → Result}

theorem tagP {j : PIdx} {x : PReg} (hx : s.pRegs[j] = some x) (h : TagsInOrder i s unread os (k ())) :
    TagsInOrder i s unread (.p j :: os) (tagP s j x k) :=
  .check (by rw [fitsP_iff hx, beq_iff_eq]) h

theorem tagF {j : FIdx} {x : FReg} (hx : s.fRegs[j] = some x) (h : TagsInOrder i s unread os (k ())) :
    TagsInOrder i s unread (.f j :: os) (tagF s j x k) :=
  .check (by rw [fitsF_iff hx, beq_iff_eq]) h

theorem tagL {j : LIdx} {x : LReg} {d : Nat} (hx : s.lRegs[j] = some x) (hd : wantedDim i s = some d)
    (h : TagsInOrder i s unread os (k ())) : TagsInOrder i s unread (.l j :: os) (tagL s j x d k) :=
  .check (by rw [fitsL_iff hx hd, beq_iff_eq]) h

theorem tagR {j : RIdx} {x : RReg} (hx : s.rRegs[j] = some x) (h : TagsInOrder i s unread os (k ())) :
    TagsInOrder i s unread (.r j :: os) (tagR s j x k) :=
  .check (by rw [fitsR_iff hx, Bool.and_eq_true, beq_iff_eq, beq_iff_eq]) h

/-- An S register has no tags. -/
theorem scalar {j : SIdx} {r : Result} (h : TagsInOrder i s unread os r) : TagsInOrder i s unread (.s j :: os) r :=
  .skip trivial h

/-- R368, R369, R371: where the rule asks no dimension, every sample fits. -/
theorem anyDim {j : LIdx} {r : Result} (hd : wantedDim i s = none) (h : TagsInOrder i s unread os r) :
    TagsInOrder i s unread (.l j :: os) r :=
  .skip (fun _ _ _ hd' => by cases hd.symm.trans hd') h

/-- R34, R351, R530 item 8: the first register whose tags differ is the one that faults. -/
theorem first_stale {r : Result} (h : TagsInOrder i s unread os r) (hread : ∀ q ∈ unread, q.Readable s)
    {pre post : List RegOperand} {o : RegOperand} (hos : os = pre ++ o :: post) (hpre : ∀ q ∈ pre, q.Fits i s)
    (ho : ¬ o.Fits i s) : r = raise s ⟨.paramMismatch, o.info⟩ := by
  induction h generalizing pre with
  | nil => cases pre <;> cases hos
  | readS _ ih =>
    obtain ⟨hq, hread⟩ := List.forall_mem_cons.mp hread
    obtain ⟨v, hv⟩ := readableS_iff.mp hq
    exact (withS_some hv _).trans (ih v hread hos hpre)
  | readP _ ih =>
    obtain ⟨hq, hread⟩ := List.forall_mem_cons.mp hread
    obtain ⟨x, hx⟩ := readableP_iff.mp hq
    exact (withP_some hx _).trans (ih x hx hread hos hpre)
  | readF _ ih =>
    obtain ⟨hq, hread⟩ := List.forall_mem_cons.mp hread
    obtain ⟨x, hx⟩ := readableF_iff.mp hq
    exact (withF_some hx _).trans (ih x hx hread hos hpre)
  | readL _ ih =>
    obtain ⟨hq, hread⟩ := List.forall_mem_cons.mp hread
    obtain ⟨x, hx⟩ := readableL_iff.mp hq
    exact (withL_some hx _).trans (ih x hx hread hos hpre)
  | readR _ ih =>
    obtain ⟨hq, hread⟩ := List.forall_mem_cons.mp hread
    obtain ⟨x, hx⟩ := readableR_iff.mp hq
    exact (withR_some hx _).trans (ih x hx hread hos hpre)
  | key hkey _ ih =>
    obtain ⟨⟨bits, fits⟩, hkey⟩ := Option.ne_none_iff_exists'.mp hkey
    exact (withKey_some hkey _).trans (ih bits fits hread hos hpre)
  | skip hfit _ ih =>
    cases pre with
    | nil => cases hos; exact absurd hfit ho
    | cons q pre => cases hos; exact ih hread rfl (List.forall_mem_cons.mp hpre).2
  | check hc _ ih =>
    cases pre with
    | nil => cases hos; exact need_false (Bool.eq_false_iff.mpr fun h => ho (hc.mp h)) ..
    | cons q pre =>
      cases hos
      obtain ⟨hq, hpre⟩ := List.forall_mem_cons.mp hpre
      exact (need_true (hc.mpr hq) ..).trans (ih hread rfl hpre)

end TagsInOrder

/-! ### Every instruction in this form -/

section
variable {i : Instr} {s : State}

/-- R361, R362: what the statement asks of the key that is checked before the tags. -/
def KeysValid (i : Instr) (s : State) : Prop :=
  (readsKeyL i = true → s.keyL ≠ none) ∧ (readsKeyR i = true → s.keyR ≠ none)

theorem selKey_lwe_ne_none (h : s.keyL ≠ none) : selKey s .lwe ≠ none := by simpa [selKey] using h

theorem selKey_ext_ne_none (h : s.keyR ≠ none) : selKey s .ext ≠ none := by simpa [selKey] using h

/-- R351, R364 to R367: a source is its own measure, to which the accumulator is then held. -/
theorem TagsInOrder.source {a : LIdx} {x : LReg} {unread os : List RegOperand} {r : Result}
    (hi : wantedDim i s = s.lRegs[a].map fun x => x.dim) (hx : s.lRegs[a] = some x)
    (h : wantedDim i s = some x.dim → TagsInOrder i s unread os r) : TagsInOrder i s unread (.l a :: os) r := by
  have hd : wantedDim i s = some x.dim := by rw [hi, hx, Option.map_some]
  exact .skip ((fitsL_iff hx hd).mpr rfl) (h hd)

/-- R530 items 5, 6 and 8: each instruction checks its predicates, reads its registers, and then checks their tags, in
order. Only L.DEC and L.PHASE check something between, the key's valid bit (R361, R362). -/
theorem exec_tags_in_order (i : Instr) (s : State) (hkeys : keyBeforeTags i = true → KeysValid i s) :
    ∃ r, exec i s = checkParams s (neededParams i) r ∧ TagsInOrder i s (readOperands i) (readOperands i) r := by
  cases i with
  -- system, scalar, control and torus: no register with tags
  | nop | halt | csrr | sLi | jmp | jal => exact ⟨_, rfl, .nil⟩
  | csrw | sAddi | sLw | jr | gauss => exact ⟨_, rfl, .scalar .nil⟩
  | sAdd | sSub | sMul | sAnd | sSll | sSrl | sSw | beq | bne | blt | bltu | mswF | mswT | aphase =>
    exact ⟨_, rfl, .scalar <| .scalar .nil⟩
  -- polynomials and the FFT engine: the degree
  | pClr | fClr => exact ⟨_, rfl, .nil⟩
  | pAdd | pSub | pMulfft =>
    exact ⟨_, rfl, .readP fun _ hx => .readP fun _ hy => .tagP hx <| .tagP hy .nil⟩
  | pAddmulz =>
    exact ⟨_, rfl, .readP fun _ hx => .readS fun _ => .readP fun _ hy => .tagP hx <| .scalar <| .tagP hy .nil⟩
  | pMulxai | pMulxaim1 => exact ⟨_, rfl, .readP fun _ hx => .readS fun _ => .tagP hx <| .scalar .nil⟩
  | pLd | fMono => exact ⟨_, rfl, .scalar .nil⟩
  | pSt => exact ⟨_, rfl, .readS fun _ => .readP fun _ hx => .scalar <| .tagP hx .nil⟩
  | fFwdi | fFwdt => exact ⟨_, rfl, .readP fun _ hx => .tagP hx .nil⟩
  | fInv => exact ⟨_, rfl, .readF fun _ hx => .tagF hx .nil⟩
  | fMuladd =>
    exact ⟨_, rfl, .readF fun _ hx => .readF fun _ hy => .readF fun _ hz =>
      .tagF hx <| .tagF hy <| .tagF hz .nil⟩
  -- LWE: the dimension
  | lEnc | lEncX | lTriv | lTrivX | lLd | lLdX | keyLdl => exact ⟨_, rfl, .scalar .nil⟩
  | lDec =>
    exact ⟨_, rfl, .readL fun _ hx => .readS fun _ => .key (selKey_lwe_ne_none ((hkeys rfl).1 rfl)) fun _ _ =>
      .tagL hx rfl <| .scalar .nil⟩
  | lDecX =>
    exact ⟨_, rfl, .readL fun _ hx => .readS fun _ => .key (selKey_ext_ne_none ((hkeys rfl).2 rfl)) fun _ _ =>
      .tagL hx rfl <| .scalar .nil⟩
  | lPhase =>
    exact ⟨_, rfl, .readL fun _ hx => .key (selKey_lwe_ne_none ((hkeys rfl).1 rfl)) fun _ _ => .tagL hx rfl .nil⟩
  | lPhaseX =>
    exact ⟨_, rfl, .readL fun _ hx => .key (selKey_ext_ne_none ((hkeys rfl).2 rfl)) fun _ _ => .tagL hx rfl .nil⟩
  | lNeg | lCopy => exact ⟨_, rfl, .anyDim rfl .nil⟩
  | lAdd | lSub =>
    exact ⟨_, rfl, .readL fun _ hx => .readL fun _ hacc => .source rfl hx fun hd => .tagL hacc hd .nil⟩
  | lAddmul | lSubmul =>
    exact ⟨_, rfl, .readL fun _ hx => .readS fun _ => .readL fun _ hacc => .source rfl hx fun hd =>
      .scalar <| .tagL hacc hd .nil⟩
  | lSt => exact ⟨_, rfl, .scalar <| .anyDim rfl .nil⟩
  -- RLWE and RGSW: the degree and the rank
  | rEnc0 => exact ⟨_, rfl, .nil⟩
  | rEnc | rTriv | gDecomp => exact ⟨_, rfl, .readP fun _ hx => .tagP hx .nil⟩
  | rPhase => exact ⟨_, rfl, .readR fun _ hx => .tagR hx .nil⟩
  | rAdd | rSub => exact ⟨_, rfl, .readR fun _ hx => .readR fun _ hy => .tagR hx <| .tagR hy .nil⟩
  | rAddmulr =>
    exact ⟨_, rfl, .readP fun _ hx => .readR fun _ hy => .readR fun _ hz =>
      .tagP hx <| .tagR hy <| .tagR hz .nil⟩
  | rMulxaim1 | rExtract | gExtprod => exact ⟨_, rfl, .readR fun _ hx => .readS fun _ => .tagR hx <| .scalar .nil⟩
  | rLd | keyLdr => exact ⟨_, rfl, .scalar .nil⟩
  | rSt => exact ⟨_, rfl, .readS fun _ => .readR fun _ hx => .scalar <| .tagR hx .nil⟩
  | gEnc | gLd => exact ⟨_, rfl, .scalar <| .scalar .nil⟩
  -- key switching and bootstrapping
  | ks => exact ⟨_, rfl, .readL fun _ hx => .tagL hx rfl .nil⟩
  | brRot | bootNks | boot => exact ⟨_, rfl, .readL fun _ hx => .readS fun _ => .tagL hx rfl <| .scalar .nil⟩

/-- R34, R351, R581: the first clause of O50. -/
theorem exec_first_stale {pre post : List RegOperand} {o : RegOperand} (hparams : ∀ p ∈ neededParams i, p.Holds s)
    (hread : ∀ q ∈ readOperands i, q.Readable s) (hkeys : keyBeforeTags i = true → KeysValid i s)
    (hi : readOperands i = pre ++ o :: post) (hpre : ∀ q ∈ pre, q.Fits i s) (ho : ¬ o.Fits i s) :
    exec i s = raise s ⟨.paramMismatch, o.info⟩ := by
  obtain ⟨r, hexec, htags⟩ := exec_tags_in_order i s hkeys
  rw [hexec, checkParams_of_holds hparams]
  exact htags.first_stale hread hi hpre ho

/-! ### A key with other tags (R350, R530 item 8) -/

theorem tagKey_stale (sel : KeySel) (k : Unit → Result) :
    tagKey s sel false k = raise s (.mismatch (selFile sel) 0) := need_false rfl ..

theorem withKeyR_stale {x : KeyR} (h : s.keyR = some x) (hx : ¬ (x.deg = s.ringN ∧ x.k = s.rankK))
    (k : KeyR → Result) : withKeyR s k = raise s (.mismatch .keyR 0) := by
  simp only [withKeyR, h]
  exact need_false (by simpa [← not_and] using hx) ..

section
variable {sel : KeySel} {bits : List Bool} (hsel : selOk s sel) (hkey : selKey s sel = some (bits, false))
include hsel hkey

theorem lweEnc_key_stale (d : LIdx) {a : SIdx} {v : Word} (ha : s.getS a = some v) :
    lweEnc sel d a s = raise s (.mismatch (selFile sel) 0) := by
  rw [lweEnc, needSel_ok hsel, withS_some ha, withKey_some hkey, tagKey_stale]

theorem lweDec_key_stale (d : SIdx) {a : LIdx} {b : SIdx} {x : LReg} {v : Word} (ha : s.lRegs[a] = some x)
    (hdim : x.dim = dimOf s sel) (hb : s.getS b = some v) :
    lweDec sel d a b s = raise s (.mismatch (selFile sel) 0) := by
  rw [lweDec, needSel_ok hsel, withL_some ha, withS_some hb, withKey_some hkey, tagL_ok hdim, tagKey_stale]

theorem lwePhase_key_stale (d : SIdx) {a : LIdx} {x : LReg} (ha : s.lRegs[a] = some x) (hdim : x.dim = dimOf s sel) :
    lwePhase sel d a s = raise s (.mismatch (selFile sel) 0) := by
  rw [lwePhase, needSel_ok hsel, withL_some ha, withKey_some hkey, tagL_ok hdim, tagKey_stale]

end

/-- R39, R350: the instructions that use KEYL. -/
theorem exec_keyL_stale (h : OperandsOk i s) {x : KeyL} (hi : readsKeyL i = true) (hkey : s.keyL = some x)
    (hx : x.dim ≠ s.lweN) : exec i s = raise s (.mismatch .keyL 0) := by
  have hstale : selKey s .lwe = some (x.s, false) := by simp [selKey, hkey, hx]
  have hlwe (hp : .lwe ∈ neededParams i) : selOk s .lwe := h.param (p := .lwe) hp
  cases i with
  | lEnc =>
    obtain ⟨v, hv⟩ := h.readS (.head _)
    exact lweEnc_key_stale (hlwe (.head _)) hstale _ hv
  | lDec =>
    obtain ⟨y, hy, hdim⟩ := h.readL (.head _)
    obtain ⟨v, hv⟩ := h.readS (.tail _ (.head _))
    exact lweDec_key_stale (hlwe (.head _)) hstale _ hy (hdim _ rfl) hv
  | lPhase =>
    obtain ⟨y, hy, hdim⟩ := h.readL (.head _)
    exact lwePhase_key_stale (hlwe (.head _)) hstale _ hy (hdim _ rfl)
  | _ => cases hi

/-- R40, R350: the instructions that use KEYR, whole or extracted. -/
theorem exec_keyR_stale (h : OperandsOk i s) {x : KeyR} (hi : readsKeyR i = true) (hkey : s.keyR = some x)
    (hx : ¬ (x.deg = s.ringN ∧ x.k = s.rankK)) : exec i s = raise s (.mismatch .keyR 0) := by
  have hstale : selKey s .ext = some (extractedKey x, false) := by
    simpa [selKey, hkey, ← not_and] using hx
  have hring (hi : needsRank i = true) : selOk s .ext := h.ring hi
  cases i with
  | lEncX =>
    obtain ⟨v, hv⟩ := h.readS (.head _)
    exact lweEnc_key_stale (hring rfl) hstale _ hv
  | lDecX =>
    obtain ⟨y, hy, hdim⟩ := h.readL (.head _)
    obtain ⟨v, hv⟩ := h.readS (.tail _ (.head _))
    exact lweDec_key_stale (hring rfl) hstale _ hy (hdim _ rfl) hv
  | lPhaseX =>
    obtain ⟨y, hy, hdim⟩ := h.readL (.head _)
    exact lwePhase_key_stale (hring rfl) hstale _ hy (hdim _ rfl)
  | rEnc0 => exact (needRing_ok (h.ring rfl) _).trans (withKeyR_stale hkey hx _)
  | rEnc =>
    obtain ⟨y, hy, hdeg⟩ := h.readP (.head _)
    show execREnc _ _ s = _
    rw [execREnc, needRing_ok (h.ring rfl), withP_some hy, tagP_ok hdeg, withKeyR_stale hkey hx]
  | rPhase =>
    obtain ⟨y, hy, hdeg, hrank⟩ := h.readR (.head _)
    show execRPhase _ _ s = _
    rw [execRPhase, needRing_ok (h.ring rfl), withR_some hy, tagR_ok hdeg hrank, withKeyR_stale hkey hx]
  | gEnc =>
    obtain ⟨slot, hslot⟩ := h.readS (.head _)
    obtain ⟨m, hm⟩ := h.readS (.tail _ (.head _))
    have hgad : s.gadOk = true := h.param (p := .gad) (by simp [neededParams])
    show execGEnc _ _ s = _
    rw [execGEnc, needRing_ok (h.ring rfl), needGad_ok hgad, withS_some hslot, withS_some hm,
      withKeyR_stale hkey hx]
  | _ => cases hi

/-! ### A slot with other tags (R480 item 4) -/

theorem bkFits_iff {g : Rgsw} :
    bkFits s g = true ↔ g.deg = s.ringN ∧ g.k = s.rankK ∧ g.l = s.gadL ∧ g.bgbit = s.gadBits := by
  simp [bkFits, and_assoc]

theorem slotFault_stale {m : Nat} {g : Rgsw} (hg : s.getBk m = some g)
    (hstale : ¬ (g.deg = s.ringN ∧ g.k = s.rankK ∧ g.l = s.gadL ∧ g.bgbit = s.gadBits)) :
    slotFault s m = some (.mismatch .bk m) := by
  simp [slotFault, hg, mt bkFits_iff.mp hstale]

/-! ### Transfers (R105, R106, R108) -/

/-- `r` is at its span check: nothing has been read from DMEM or written. -/
def AtSpan (s : State) (ea : Word) (len : Nat) (r : Result) : Prop := ∃ k, r = needSpan s ea len k

theorem AtSpan.misaligned {ea : Word} {len : Nat} {r : Result} (h : AtSpan s ea len r) (hal : ea.toNat % 4 ≠ 0) :
    r = raise s ⟨.dmemMisaligned, ea⟩ := by
  obtain ⟨k, rfl⟩ := h
  exact needSpan_misaligned hal k

theorem AtSpan.outOfRange {ea : Word} {len : Nat} {r : Result} (h : AtSpan s ea len r) (hal : ea.toNat % 4 = 0)
    (hout : s.params.dmemSize < ea.toNat + len) : r = raise s ⟨.dmemOob, ea⟩ := by
  obtain ⟨k, rfl⟩ := h
  exact needSpan_oob hal hout k

theorem lweLoad_atSpan {sel : KeySel} (hsel : selOk s sel) (d : LIdx) {a : SIdx} {v : Word} (ha : s.getS a = some v)
    (imm : Word) : AtSpan s (v + imm) (lStride (dimOf s sel)) (lweLoad sel d a imm s) := by
  rw [lweLoad, needSel_ok hsel, withS_some ha]
  exact ⟨_, rfl⟩

/-- R108: an instruction that addresses DMEM through S[a] checks the span at S[a] + imm. -/
theorem checkedSpan_register {a : SIdx} {v imm ea : Word} {bytes len : Nat} (ha : s.getS a = some v)
    (h : ((s.getS a).map fun v => (v + imm, bytes)) = some (ea, len)) : ea = v + imm ∧ len = bytes := by
  rw [ha, Option.map_some, Option.some.injEq, Prod.mk.injEq] at h
  exact ⟨h.1.symm, h.2.symm⟩

/-- R110 to R115, R530 item 11: with every earlier check passed, the span check comes next. -/
theorem exec_reaches_span (h : OperandsOk i s)
    (hslot : ∀ d a imm v, i = .gLd d a imm → s.getS d = some v → v.toNat < s.params.bkSlots)
    (hbk : usesAllSlots i = true → s.bkReady) {ea : Word} {len : Nat} (hspan : checkedSpan i s = some (ea, len)) :
    AtSpan s ea len (exec i s) := by
  have hparam (p : ParamPred) (hp : p ∈ neededParams i) : p.ok s = true := h.param hp
  cases i with
  | sLw _ a imm =>
    obtain ⟨v, hv⟩ := h.readS (.head _)
    obtain ⟨rfl, rfl⟩ := checkedSpan_register hv hspan
    exact ⟨_, withS_some hv _⟩
  | sSw d a imm =>
    obtain ⟨v, hv⟩ := h.readS (.head _)
    obtain ⟨w, hw⟩ := h.readS (.tail _ (.head _))
    obtain ⟨rfl, rfl⟩ := checkedSpan_register hv hspan
    exact ⟨_, (withS_some hv _).trans (withS_some hw _)⟩
  | pLd _ a imm =>
    obtain ⟨v, hv⟩ := h.readS (.head _)
    obtain ⟨rfl, rfl⟩ := checkedSpan_register hv hspan
    show AtSpan s _ _ (execPLd _ a imm s)
    rw [execPLd, needN_ok (hparam .n (.head _)), withS_some hv]
    exact ⟨_, rfl⟩
  | pSt d a imm =>
    obtain ⟨v, hv⟩ := h.readS (.head _)
    obtain ⟨x, hx, hdeg⟩ := h.readP (.tail _ (.head _))
    obtain ⟨rfl, rfl⟩ := checkedSpan_register hv hspan
    show AtSpan s _ _ (execPSt d a imm s)
    rw [execPSt, needN_ok (hparam .n (.head _)), withS_some hv, withP_some hx, tagP_ok hdeg]
    exact ⟨_, rfl⟩
  | lLd d a imm =>
    obtain ⟨v, hv⟩ := h.readS (.head _)
    obtain ⟨rfl, rfl⟩ := checkedSpan_register hv hspan
    exact lweLoad_atSpan (sel := .lwe) (hparam .lwe (.head _)) d hv imm
  | lLdX d a imm =>
    obtain ⟨v, hv⟩ := h.readS (.head _)
    obtain ⟨rfl, rfl⟩ := checkedSpan_register hv hspan
    exact lweLoad_atSpan (sel := .ext) (h.ring rfl) d hv imm
  | lSt d a imm =>
    obtain ⟨v, hv⟩ := h.readS (.head _)
    obtain ⟨x, hx, -⟩ := h.readL (.tail _ (.head _))
    obtain ⟨rfl, rfl⟩ := checkedSpan_register hv (by simpa only [checkedSpan, hx, Option.bind_some] using hspan)
    exact ⟨_, (withS_some hv _).trans (withL_some hx _)⟩
  | keyLdl a imm =>
    obtain ⟨v, hv⟩ := h.readS (.head _)
    obtain ⟨rfl, rfl⟩ := checkedSpan_register hv hspan
    show AtSpan s _ _ (execKeyLdl a imm s)
    rw [execKeyLdl, needLwe_ok (hparam .lwe (.head _)), withS_some hv]
    exact ⟨_, rfl⟩
  | rLd _ a imm =>
    obtain ⟨v, hv⟩ := h.readS (.head _)
    obtain ⟨rfl, rfl⟩ := checkedSpan_register hv hspan
    show AtSpan s _ _ (execRLd _ a imm s)
    rw [execRLd, needRing_ok (h.ring rfl), withS_some hv]
    exact ⟨_, rfl⟩
  | rSt d a imm =>
    obtain ⟨v, hv⟩ := h.readS (.head _)
    obtain ⟨x, hx, hdeg, hrank⟩ := h.readR (.tail _ (.head _))
    obtain ⟨rfl, rfl⟩ := checkedSpan_register hv hspan
    show AtSpan s _ _ (execRSt d a imm s)
    rw [execRSt, needRing_ok (h.ring rfl), withS_some hv, withR_some hx, tagR_ok hdeg hrank]
    exact ⟨_, rfl⟩
  | keyLdr a imm =>
    obtain ⟨v, hv⟩ := h.readS (.head _)
    obtain ⟨rfl, rfl⟩ := checkedSpan_register hv hspan
    show AtSpan s _ _ (execKeyLdr a imm s)
    rw [execKeyLdr, needRing_ok (h.ring rfl), withS_some hv]
    exact ⟨_, rfl⟩
  | gLd d a imm =>
    obtain ⟨v, hv⟩ := h.readS (.head _)
    obtain ⟨slot, hd⟩ := h.readS (.tail _ (.head _))
    obtain ⟨rfl, rfl⟩ := checkedSpan_register hv hspan
    have hgad : s.gadOk = true := hparam .gad (by simp [neededParams])
    show AtSpan s _ _ (execGLd d a imm s)
    rw [execGLd, needRing_ok (h.ring rfl), needGad_ok hgad, withS_some hv, withS_some hd,
      needBelow_ok (hslot d a imm slot rfl hd)]
    exact ⟨_, rfl⟩
  | ks d a =>
    obtain ⟨x, hx, hdim⟩ := h.readL (.head _)
    have hlwe : s.lweOk = true := hparam .lwe (by simp [neededParams])
    have hks : s.ksOk = true := hparam .ks (by simp [neededParams])
    have hdim : x.dim = s.extN := hdim _ rfl
    cases hspan
    show AtSpan s _ _ (execKs d a s)
    rw [execKs, needRing_ok (h.ring rfl), needLwe_ok hlwe, needKs_ok hks, withL_some hx, tagL_ok hdim]
    exact ⟨_, rfl⟩
  | boot d a b =>
    obtain ⟨c, hc, hdim⟩ := h.readL (.head _)
    obtain ⟨mu, hmu⟩ := h.readS (.tail _ (.head _))
    cases hspan
    show AtSpan s _ _ (execBoot d a b s)
    rw [execBoot, needBoot_ok (h.ring rfl) (hparam .lwe (by simp [neededParams]))
      (hparam .gad (by simp [neededParams])) (fun _ => hparam .ks (by simp [neededParams]))
      (hparam .bkFit (by simp [neededParams])) hc hmu (hdim _ rfl) (hbk rfl)]
    exact ⟨_, rfl⟩
  | _ => cases hspan

end

/-- Settles O50: the first stale tag of the list of checks; then the keys and the slots; then the span check. -/
theorem badTransfersAndStaleTagsFault : Obligations.BadTransfersAndStaleTagsFault := by
  refine ⟨fun i s pre post o hparams hread hkeys hi hpre ho => exec_first_stale hparams hread hkeys hi hpre ho,
    fun i s h => ⟨fun x hi hkey hx => exec_keyL_stale h hi hkey hx, fun x hi hkey hx => exec_keyR_stale h hi hkey hx,
      fun m g hi hm hpre hg hstale => exec_first_slot h hi hm hpre (slotFault_stale hg hstale)⟩,
    fun i s ea len h hslot hbk hspan => ?_⟩
  have hat : AtSpan s ea len (exec i s) := exec_reaches_span h hslot hbk hspan
  exact ⟨hat.misaligned, hat.outOfRange⟩

end Sys2Proof.Machine
end

section
/-! PROOF of O59 and O60: the host port (R60 to R65, R116, R121, R525, R540 to R542). Which window a host offset falls
in comes first; then what a read and a write do there. -/

namespace Sys2Proof.Machine

/-! ### Windows (R116, R540) -/

theorem windowOf_regs {p : Params} {off : Word} {o : Nat} (ho : o = off.toNat / 4 * 4) (hlt : o < 0x1000) :
    windowOf p off = .regs o := by
  subst ho
  exact if_pos hlt

theorem windowOf_ne_regs {p : Params} {off : Word} (h : 0x1000 ≤ off.toNat) (o : Nat) : windowOf p off ≠ .regs o := by
  simp only [windowOf]
  rw [if_neg (by omega)]
  split_ifs <;> exact Window.noConfusion

theorem windowOf_csr {p : Params} {off : Word} {c : Nat} (ho : 0x1000 + 4 * c = off.toNat / 4 * 4) (hc : c < 0x1000) :
    windowOf p off = .csr c := by
  simp only [windowOf, ← ho]
  rw [if_neg (by omega), if_pos (by omega)]
  congr 1
  omega

theorem windowOf_imem {p : Params} {off : Word} {addr : Nat} (ho : 0x01000000 + addr = off.toNat / 4 * 4)
    (haddr : addr < p.imemSize) : windowOf p off = .imem addr := by
  simp only [windowOf, ← ho]
  rw [if_neg (by omega), if_neg (by omega), if_pos (by omega), Nat.add_sub_cancel_left]

/-- R9: IMEM is small enough to end below the DMEM window. -/
theorem windowOf_dmem {p : Params} (hp : p.Ok) {off : Word} {addr : Nat} (ho : 0x10000000 + addr = off.toNat / 4 * 4)
    (haddr : addr < p.dmemSize) : windowOf p off = .dmem addr := by
  have himem := hp.imemMax
  simp only [windowOf, ← ho]
  rw [if_neg (by omega), if_neg (by omega), if_neg (by omega), if_pos (by omega), Nat.add_sub_cancel_left]

theorem windowOf_outside {p : Params} (hp : p.Ok) {off : Word} {o : Nat} (ho : o = off.toNat / 4 * 4)
    (hout : (0x5000 ≤ o ∧ o < 0x01000000) ∨ (0x01000000 + p.imemSize ≤ o ∧ o < 0x10000000) ∨
      0x10000000 + p.dmemSize ≤ o) : windowOf p off = .outside := by
  have himem := hp.imemMax
  simp only [windowOf, ← ho]
  rw [if_neg (by omega), if_neg (by omega), if_neg (by omega), if_neg (by omega)]

/-! ### The register block (R60 to R65) -/

section
variable {s : State} {off : Word} {o : Nat}

theorem portRead_regs (ho : o = off.toNat / 4 * 4) (hlt : o < 0x1000) : portRead s off = (regRead s o, s) := by
  simp only [portRead, windowOf_regs ho hlt]

theorem portWrite_regs (ho : o = off.toNat / 4 * 4) (hlt : o < 0x1000) (v : Word) :
    portWrite s off v = regWrite s o v := by
  simp only [portWrite, windowOf_regs ho hlt]

/-- R60: past FAULT_INFO the block is empty. -/
theorem regRead_past_end (h : 0x028 ≤ o) : regRead s o = 0 := by
  unfold regRead
  split
  case h_10 => rfl
  all_goals omega

/-- R60: the registers a host can write are CTRL, STATUS, IRQ_EN and START_PC. -/
theorem regWrite_ignored (h : o ∉ [0x008, 0x00C, 0x010, 0x014]) (v : Word) : regWrite s o v = s := by
  unfold regWrite
  split
  case h_5 => rfl
  all_goals simp at h

/-- R41, R62. -/
theorem runState_code_table :
    ∀ p ∈ ([(.idle, 0), (.running, 1), (.halted, 2), (.faulted, 3)] : List (RunState × Word)), p.1.code = p.2 := by
  decide

/-- R64, R521. -/
theorem cause_code_table :
    ∀ p ∈ ([(.none, 0), (.illegalInstr, 1), (.fetchMisaligned, 2), (.fetchOob, 3), (.dmemMisaligned, 4), (.dmemOob, 5),
      (.badParam, 6), (.paramMismatch, 7), (.uninit, 8), (.badOperand, 9), (.illegalCsr, 10)] : List (Cause × Word)),
      p.1.code = p.2 := by
  decide

theorem status_of_table {p : RunState × Word} (h : s.runState = p.1)
    (hp : p ∈ ([(.idle, 0), (.running, 1), (.halted, 2), (.faulted, 3)] : List (RunState × Word))) :
    s.status = p.2 + if s.irqPending then 0x100 else 0 := by
  rw [State.status, h, runState_code_table p hp]

/-! ### The windows while RUNNING (R121) -/

theorem portRead_of_running (hrun : s.runState = .running) (h : 0x1000 ≤ off.toNat) : portRead s off = (0, s) := by
  cases hw : windowOf s.params off with
  | regs o => exact absurd hw (windowOf_ne_regs h o)
  | csr | imem | dmem => simp only [portRead, hw, if_pos hrun]
  | outside => simp only [portRead, hw]

theorem portWrite_of_running (hrun : s.runState = .running) (h : 0x1000 ≤ off.toNat) (v : Word) :
    portWrite s off v = s := by
  cases hw : windowOf s.params off with
  | regs o => exact absurd hw (windowOf_ne_regs h o)
  | csr | imem | dmem => simp only [portWrite, hw, if_pos hrun]
  | outside => simp only [portWrite, hw]

end

/-- Settles O59: the refusal while RUNNING, and the register block row by row. -/
theorem windowsRefusedWhileRunning : Obligations.WindowsRefusedWhileRunning := by
  intro s off v
  refine ⟨fun hrun h => ⟨portRead_of_running hrun h, portWrite_of_running hrun h v⟩, fun o ho hlt => ?_, rfl⟩
  rw [portRead_regs ho hlt, portWrite_regs ho hlt]
  refine ⟨rfl, ?hid, ?hversion, ?ctrl, ?status, ?irqEn, ?startPc, ?pc, ?cause, ?faultPc, ?faultInfo, regRead_past_end,
    ?ctrlWrite, ?statusWrite, ?irqEnWrite, ?startPcWrite, fun h => regWrite_ignored h v⟩
  case status =>
    rintro rfl p hp h
    exact status_of_table h hp
  case cause =>
    rintro rfl p hp h
    exact (congrArg Cause.code h).trans (cause_code_table p hp)
  all_goals
    rintro rfl
    rfl

/-! ### The memory windows (R541) -/

section
variable {s : State} {off : Word}

/-- A written word is read without a draw. -/
theorem portMemRead_written {m : Memory} {addr : Nat} {w : Word} (h : memWord m addr = some w) :
    portMemRead s m addr = (w, s) := by
  have hload : loadWords m s.drawCtr addr 1 = ([w], s.drawCtr) :=
    loadWords_written rfl fun i hi => by obtain rfl := Nat.lt_one_iff.mp hi; exact h
  rw [portMemRead, hload]
  rfl

/-- R107: a never-written word is one draw. -/
theorem portMemRead_unwritten {m : Memory} {addr : Nat} (h : memWord m addr = none) :
    ∃ w, portMemRead s m addr = (w, s.bump 1) := by
  have hspan : spanWritten m addr 1 = false := by simp [spanWritten, h]
  refine ⟨coeff (loadWords m s.drawCtr addr 1).1 0, ?_⟩
  simp [portMemRead, loadWords, hspan, State.bump]

/-- R103: a store leaves the other bytes. -/
theorem memByte_memSetWord_of_outside (m : Memory) {addr a : Nat} (w : Word) (h : a < addr ∨ addr + 4 ≤ a) :
    memByte (memSetWord m addr w) a = memByte m a := by
  rw [memByte_memSetWord, if_neg (by omega)]

section
variable (hrun : s.runState ≠ .running)
include hrun

theorem portRead_dmem {addr : Nat} (hw : windowOf s.params off = .dmem addr) :
    portRead s off = portMemRead s s.dmem addr := by
  simp only [portRead, hw, if_neg hrun]

theorem portRead_imem {addr : Nat} (hw : windowOf s.params off = .imem addr) :
    portRead s off = portMemRead s s.imem addr := by
  simp only [portRead, hw, if_neg hrun]

theorem portRead_csr {c : Nat} (hw : windowOf s.params off = .csr c) :
    portRead s off = ((csrRead s c).getD 0, s) := by
  simp only [portRead, hw, if_neg hrun]

theorem portWrite_dmem {addr : Nat} (hw : windowOf s.params off = .dmem addr) (v : Word) :
    portWrite s off v = { s with dmem := memSetWord s.dmem addr v } := by
  simp only [portWrite, hw, if_neg hrun]

theorem portWrite_imem {addr : Nat} (hw : windowOf s.params off = .imem addr) (v : Word) :
    portWrite s off v = { s with imem := memSetWord s.imem addr v } := by
  simp only [portWrite, hw, if_neg hrun]

theorem portWrite_csr {c : Nat} (hw : windowOf s.params off = .csr c) (v : Word) :
    portWrite s off v = if csrIsRw c then s.setCsr c v else s := by
  simp only [portWrite, hw, if_neg hrun]

/-- R109: what the host writes to DMEM it reads back. -/
theorem portRead_portWrite_dmem {addr : Nat} (hw : windowOf s.params off = .dmem addr) (v : Word) :
    portRead (portWrite s off v) off = (v, portWrite s off v) := by
  rw [portWrite_dmem hrun hw]
  exact (portRead_dmem (s := { s with dmem := memSetWord s.dmem addr v }) hrun hw).trans
    (portMemRead_written (memWord_memSetWord ..))

theorem portRead_portWrite_imem {addr : Nat} (hw : windowOf s.params off = .imem addr) (v : Word) :
    portRead (portWrite s off v) off = (v, portWrite s off v) := by
  rw [portWrite_imem hrun hw]
  exact (portRead_imem (s := { s with imem := memSetWord s.imem addr v }) hrun hw).trans
    (portMemRead_written (memWord_memSetWord ..))

end

end

/-! ### The CSR window (R50, R541) -/

/-- R51: a read-write CSR keeps all 32 bits. -/
theorem csrRead_setCsr (s : State) {c : Nat} (hc : c < 10) (v : Word) : csrRead (s.setCsr c v) c = some v := by
  interval_cases c <;> rfl

/-- Settles O60: the window of each offset, and what a read and a write do there. -/
theorem hostMemoryAccess : Obligations.HostMemoryAccess := by
  intro s off v o hp ho
  refine ⟨fun hrun => ⟨fun addr hoff haddr => ?dmem, fun addr hoff haddr => ?imem, fun c hoff hc => ?csr⟩,
    fun hout => ?outside⟩
  case dmem =>
    have hw : windowOf s.params off = .dmem addr := windowOf_dmem hp (hoff.symm.trans ho) haddr
    exact ⟨portWrite_dmem hrun hw v, memWord_memSetWord .., fun a => memByte_memSetWord_of_outside _ v,
      portRead_portWrite_dmem hrun hw v, fun w h => (portRead_dmem hrun hw).trans (portMemRead_written h),
      fun h => portRead_dmem hrun hw ▸ portMemRead_unwritten h⟩
  case imem =>
    have hw : windowOf s.params off = .imem addr := windowOf_imem (hoff.symm.trans ho) haddr
    exact ⟨portWrite_imem hrun hw v, memWord_memSetWord .., fun a => memByte_memSetWord_of_outside _ v,
      portRead_portWrite_imem hrun hw v, fun w h => (portRead_imem hrun hw).trans (portMemRead_written h),
      fun h => portRead_imem hrun hw ▸ portMemRead_unwritten h⟩
  case csr =>
    have hw : windowOf s.params off = .csr c := windowOf_csr (hoff.symm.trans ho) hc
    refine ⟨portRead_csr hrun hw, fun hrw => ?_, fun hro => ?_⟩
    · have hwrite : portWrite s off v = s.setCsr c v :=
        (portWrite_csr hrun hw v).trans (if_pos (decide_eq_true hrw))
      have hrun' : (s.setCsr c v).runState ≠ .running := hrun
      refine ⟨hwrite, ?_⟩
      rw [hwrite, portRead_csr hrun' hw, csrRead_setCsr s hrw, Option.getD_some]
    · have hnot : ¬ csrIsRw c = true := by simpa [csrIsRw] using hro
      exact (portWrite_csr hrun hw v).trans (if_neg hnot)
  case outside =>
    have hw : windowOf s.params off = .outside := windowOf_outside hp ho hout
    exact ⟨by simp only [portRead, hw], by simp only [portWrite, hw]⟩

end Sys2Proof.Machine
end

section
/-! PROOF of O1, O4 and O5: the instruction word (R140 to R151). First what each field keeps of what was put into it
(R140 to R143), then what the two forms of a row accept (R144, R146). The decoder and the encoder are compared field by
field, once along the instructions and once along the arms of the decoder. For the opcode map, the word of every
instruction matches its row (Laws/PerInstr.lean), and what a row's mask compares is what its arm checks. -/

namespace Sys2Proof.Machine

open Laws

/-! ### The seven fields of a word (R140) -/

/-- The word of seven fields has those fields. -/
theorem split_join (f : Fields) : Fields.split f.join = f := by
  obtain ⟨op, d, a, b, c, fn, imm⟩ := f
  simp only [Fields.split, Fields.join, Fields.mk.injEq]
  refine ⟨?_, ?_, ?_, ?_, ?_, ?_, ?_⟩ <;> ext j hj <;>
    simp (disch := omega) <;> grind

/-- The bitwise AND of two words, field by field: `join_and` read backwards. -/
theorem split_and (v w : InstrWord) : Fields.split (v &&& w) =
    ⟨(Fields.split v).op &&& (Fields.split w).op, (Fields.split v).d &&& (Fields.split w).d,
      (Fields.split v).a &&& (Fields.split w).a, (Fields.split v).b &&& (Fields.split w).b,
      (Fields.split v).c &&& (Fields.split w).c, (Fields.split v).fn &&& (Fields.split w).fn,
      (Fields.split v).imm &&& (Fields.split w).imm⟩ := by
  rw [← join_split v, ← join_split w, join_and, split_join, join_split, join_split]

/-- A row matches a word exactly when it does so field by field (R140, R145). -/
theorem matches_join_iff (r : OpRow) (f : Fields) : r.matches f.join = true ↔
    f.op &&& (Fields.split r.mask).op = (Fields.split r.pattern).op ∧
    f.d &&& (Fields.split r.mask).d = (Fields.split r.pattern).d ∧
    f.a &&& (Fields.split r.mask).a = (Fields.split r.pattern).a ∧
    f.b &&& (Fields.split r.mask).b = (Fields.split r.pattern).b ∧
    f.c &&& (Fields.split r.mask).c = (Fields.split r.pattern).c ∧
    f.fn &&& (Fields.split r.mask).fn = (Fields.split r.pattern).fn ∧
    f.imm &&& (Fields.split r.mask).imm = (Fields.split r.pattern).imm := by
  constructor
  · intro h
    have hp : r.pattern = f.join &&& r.mask := (beq_iff_eq.mp h).symm
    simp only [hp, split_and, split_join, and_self]
  · rintro ⟨hop, hd, ha, hb, hc, hfn, himm⟩
    exact row_matches r f hop hd ha hb hc hfn himm

/-! ### Register and CSR fields (R142, R143) -/

@[simp] theorem idx16_fld16 (r : Fin 16) : idx16 (fld16 r) = r := by revert r; decide
@[simp] theorem idx8_fld8 (r : Fin 8) : idx8 (fld8 r) = r := by revert r; decide
@[simp] theorem idx4_fld4 (r : Fin 4) : idx4 (fld4 r) = r := by revert r; decide
@[simp] theorem fld16_idx16 (x : BitVec 4) : fld16 (idx16 x) = x := by revert x; decide
theorem fld8_idx8 {x : BitVec 4} : isLow8 x = true → fld8 (idx8 x) = x := by revert x; decide
theorem fld4_idx4 {x : BitVec 4} : isLow4 x = true → fld4 (idx4 x) = x := by revert x; decide
@[simp] theorem isLow8_fld8 (r : Fin 8) : isLow8 (fld8 r) = true := by revert r; decide
@[simp] theorem isLow4_fld4 (r : Fin 4) : isLow4 (fld4 r) = true := by revert r; decide

/-- The range check of an L or F field, as the masks of R150 make it. -/
theorem isLow8_iff {x : BitVec 4} : isLow8 x = true ↔ x &&& 8 = 0 := by revert x; decide

/-- The range check of an R field, as the masks of R150 make it. -/
theorem isLow4_iff {x : BitVec 4} : isLow4 x = true ↔ x &&& 12 = 0 := by revert x; decide

@[simp] theorem csrNumberOk_csrOf (imm : BitVec 32) : csrNumberOk (csrOf imm) = true :=
  decide_eq_true (Nat.mod_lt _ (by decide))

theorem csrHighOk_ofNat {csr : Nat} (h : csr < 4096) : csrHighOk (BitVec.ofNat 32 csr) = true := by
  simp only [csrHighOk, BitVec.toNat_ofNat, decide_eq_true_eq]
  omega

theorem csrOf_ofNat {csr : Nat} (h : csr < 4096) : csrOf (BitVec.ofNat 32 csr) = csr := by
  simp only [csrOf, BitVec.toNat_ofNat]
  omega

theorem ofNat_csrOf {imm : BitVec 32} (h : csrHighOk imm = true) : BitVec.ofNat 32 (csrOf imm) = imm := by
  rw [csrOf, Nat.mod_eq_of_lt (of_decide_eq_true h), BitVec.ofNat_toNat, BitVec.setWidth_eq]

/-- The check of word[63:44], as the masks of R150 make it. -/
theorem csrHighOk_iff {imm : BitVec 32} : csrHighOk imm = true ↔ imm &&& 0xFFFFF000 = 0 := by
  constructor
  · intro h
    rw [← ofNat_csrOf h]
    exact csr_field (Nat.mod_lt _ (by decide))
  · intro h
    have hlow : imm = imm &&& 0xFFF :=
      calc imm = imm &&& (0xFFFFF000 ||| 0xFFF) := BitVec.and_allOnes.symm
        _ = imm &&& 0xFFF := by rw [BitVec.and_or_distrib_left, h]; exact BitVec.zero_or
    rw [csrHighOk, decide_eq_true_iff, hlow, BitVec.toNat_and]
    exact Nat.and_lt_two_pow (n := 12) _ (by decide)

/-! ### What a row accepts (R144, R146) -/

theorem row_eq_ok_iff {f : Fields} {ok : Bool} {i j : Instr} :
    row f ok i = .ok j ↔ f.c = 0 ∧ f.fn = 0 ∧ ok = true ∧ i = j := by
  unfold row
  split_ifs <;> simp_all

theorem rowX_eq_ok_iff {f : Fields} {ok : Bool} {i0 i1 j : Instr} :
    rowX f ok i0 i1 = .ok j ↔ f.c = 0 ∧ ok = true ∧ (f.fn = 0 ∧ i0 = j ∨ f.fn = 1 ∧ i1 = j) := by
  unfold rowX
  split_ifs <;> grind

/-! ### The decoder against the encoder -/

/-- The fields of a well-formed instruction decode to it: each lies in the arm of its opcode, and its register fields
are in range. Only the CSR rows need the instruction to be well formed. -/
theorem decodeFields_encodeFields {i : Instr} (h : i.wf = true) : decodeFields (encodeFields i) = .ok i := by
  cases i with
  | csrr d csr | csrw a csr =>
    have hcsr : csr < 4096 := of_decide_eq_true h
    exact row_eq_ok_iff.mpr (by simp [encodeFields, csrHighOk_ofNat hcsr, csrOf_ofNat hcsr])
  | lEnc | lEncX | lDec | lDecX | lPhase | lPhaseX | lTriv | lTrivX | lLd | lLdX =>
    exact rowX_eq_ok_iff.mpr (by simp [encodeFields])
  | _ => exact row_eq_ok_iff.mpr (by simp [encodeFields])

/-- Fields that decode are the fields of the instruction: what an arm checks is what the encoder writes. -/
theorem wf_and_encodeFields_of_decodeFields {f : Fields} {i : Instr} (h : decodeFields f = .ok i) :
    i.wf = true ∧ encodeFields i = f := by
  obtain ⟨op, d, a, b, c, fn, imm⟩ := f
  unfold decodeFields at h
  split at h
  -- The five pairs of rows that word[24] tells apart.
  case h_41 | h_42 | h_43 | h_44 | h_51 =>
    obtain ⟨rfl, hok, ⟨rfl, rfl⟩ | ⟨rfl, rfl⟩⟩ := rowX_eq_ok_iff.mp h <;>
      simp_all [encodeFields, Instr.wf, fld8_idx8]
  -- No arm lists the opcode.
  case h_74 => cases h
  all_goals
    obtain ⟨rfl, rfl, hok, rfl⟩ := row_eq_ok_iff.mp h
    simp_all [encodeFields, Instr.wf, fld8_idx8, fld4_idx4, ofNat_csrOf]

/-- Settles O5: the two directions for the fields, which a word and its fields carry to words. -/
theorem encodingRoundTrip : Obligations.EncodingRoundTrip := by
  refine ⟨fun i hwf => ?_, fun w i hdec => ?_⟩
  · rw [decode, encode, split_join, decodeFields_encodeFields hwf]
  · obtain ⟨hwf, henc⟩ := wf_and_encodeFields_of_decodeFields hdec
    exact ⟨hwf, by rw [encode, henc, join_split]⟩

/-! ### The opcode map (R145, R148, R150) -/

open EncodeMatch in
/-- The word of every well-formed instruction matches the row with its mnemonic. -/
theorem encode_matches_row : ∀ i : Instr, EncodeMatch.Statement i
  | .nop => nop | .halt => halt | .csrr .. => csrr _ _ | .csrw .. => csrw _ _ | .sLi .. => sLi _ _
  | .sAddi .. => sAddi _ _ _ | .sAdd .. => sAdd _ _ _ | .sSub .. => sSub _ _ _ | .sMul .. => sMul _ _ _
  | .sAnd .. => sAnd _ _ _ | .sSll .. => sSll _ _ _ | .sSrl .. => sSrl _ _ _ | .sLw .. => sLw _ _ _
  | .sSw .. => sSw _ _ _ | .beq .. => beq _ _ _ | .bne .. => EncodeMatch.bne _ _ _ | .blt .. => blt _ _ _
  | .bltu .. => bltu _ _ _ | .jmp .. => jmp _ | .jal .. => jal _ _ | .jr .. => jr _ | .mswF .. => mswF _ _ _
  | .mswT .. => mswT _ _ _ | .aphase .. => aphase _ _ _ | .gauss .. => gauss _ _ | .pClr .. => pClr _
  | .pAdd .. => pAdd _ _ _ | .pSub .. => pSub _ _ _ | .pAddmulz .. => pAddmulz _ _ _
  | .pMulxai .. => pMulxai _ _ _ | .pMulxaim1 .. => pMulxaim1 _ _ _ | .pMulfft .. => pMulfft _ _ _
  | .pLd .. => pLd _ _ _ | .pSt .. => pSt _ _ _ | .fClr .. => fClr _ | .fFwdi .. => fFwdi _ _
  | .fFwdt .. => fFwdt _ _ | .fInv .. => fInv _ _ | .fMuladd .. => fMuladd _ _ _ | .fMono .. => fMono _ _
  | .lEnc .. => lEnc _ _ | .lEncX .. => lEncX _ _ | .lDec .. => lDec _ _ _ | .lDecX .. => lDecX _ _ _
  | .lPhase .. => lPhase _ _ | .lPhaseX .. => lPhaseX _ _ | .lTriv .. => lTriv _ _ | .lTrivX .. => lTrivX _ _
  | .lAdd .. => lAdd _ _ | .lSub .. => lSub _ _ | .lAddmul .. => lAddmul _ _ _ | .lSubmul .. => lSubmul _ _ _
  | .lNeg .. => lNeg _ _ | .lCopy .. => lCopy _ _ | .lLd .. => lLd _ _ _ | .lLdX .. => lLdX _ _ _
  | .lSt .. => lSt _ _ _ | .keyLdl .. => keyLdl _ _ | .rEnc0 .. => rEnc0 _ | .rEnc .. => rEnc _ _
  | .rPhase .. => rPhase _ _ | .rTriv .. => rTriv _ _ | .rAdd .. => rAdd _ _ | .rSub .. => rSub _ _
  | .rAddmulr .. => rAddmulr _ _ _ | .rMulxaim1 .. => rMulxaim1 _ _ _ | .rExtract .. => rExtract _ _ _
  | .rLd .. => rLd _ _ _ | .rSt .. => rSt _ _ _ | .keyLdr .. => keyLdr _ _ | .gDecomp .. => gDecomp _ _
  | .gEnc .. => gEnc _ _ | .gLd .. => gLd _ _ _ | .gExtprod .. => gExtprod _ _ _ | .ks .. => ks _ _
  | .brRot .. => brRot _ _ _ | .bootNks .. => bootNks _ _ _ | .boot .. => boot _ _ _

/-! A field that the mask compares whole, for each width. -/

theorem and_ones4 (x : BitVec 4) : x &&& 15#4 = x := BitVec.and_allOnes
theorem and_ones8 (x : BitVec 8) : x &&& 255#8 = x := BitVec.and_allOnes
theorem and_ones32 (x : BitVec 32) : x &&& 4294967295#32 = x := BitVec.and_allOnes

/-- Fields that match a row of the opcode map decode to an instruction with the row's mnemonic: each condition of the
arm of the row's opcode is one of the fields of the row's mask. -/
theorem decodeFields_of_matches (f : Fields) : ∀ r ∈ opcodeTable, r.matches f.join = true →
    ∃ i, decodeFields f = .ok i ∧ i.mnemonic = r.mnemonic := by
  obtain ⟨op, d, a, b, c, fn, imm⟩ := f
  rw [← List.forall_iff_forall_mem]
  simp only [opcodeTable, opcodeTableLow, opcodeTableHigh, List.cons_append, List.nil_append, List.Forall,
    matches_join_iff, Fields.split, BitVec.ofNat_eq_ofNat, BitVec.reduceExtractLsb', BitVec.and_zero, and_ones4,
    and_ones8, and_ones32, true_and]
  -- Word[24] is set in the five rows with X = 1, which the second branch of their arms accepts.
  by_cases hX : fn = 1
  · subst hX
    simp only [BitVec.ofNat_eq_ofNat, BitVec.reduceEq, false_and, and_false, false_imp_iff, true_and, and_true]
    and_intros
    all_goals
      rintro ⟨rfl, h⟩
      exact ⟨_, rowX_eq_ok_iff.mpr ⟨by simp [h], by simp [h, isLow8_iff], .inr ⟨rfl, rfl⟩⟩, rfl⟩
  · simp only [BitVec.ofNat_eq_ofNat] at hX
    simp only [hX, false_and, and_false, false_imp_iff, true_and, and_true]
    and_intros
    all_goals
      rintro ⟨rfl, h⟩
      exact ⟨_, if_pos (by simp [h, isLow8_iff, isLow4_iff, csrHighOk_iff]), rfl⟩

/-- Settles O4: a word that decodes is the word of its instruction, so it matches that row; a row that it matches
makes it decode to an instruction with that mnemonic, and a word decodes to one instruction only. -/
theorem wordsAreRowsOrIllegal : Obligations.WordsAreRowsOrIllegal := by
  intro w
  have hrow : ∀ r ∈ opcodeTable, r.matches w = true → ∃ i, decode w = .ok i ∧ i.mnemonic = r.mnemonic := by
    simpa only [decode, join_split] using decodeFields_of_matches (Fields.split w)
  refine ⟨⟨fun ⟨i, hdec⟩ => ?_, fun ⟨r, hr, hm⟩ => ?_⟩, fun i hdec r hr hm => ?_⟩
  · obtain ⟨hwf, rfl⟩ := encodingRoundTrip.2 w i hdec
    obtain ⟨r, hr, -, hm⟩ := encode_matches_row i hwf
    exact ⟨r, hr, hm⟩
  · obtain ⟨i, hdec, -⟩ := hrow r hr hm
    exact ⟨i, hdec⟩
  · obtain ⟨j, hdec', hj⟩ := hrow r hr hm
    obtain rfl : i = j := Except.ok.inj (hdec.symm.trans hdec')
    exact hj.symm

/-! ### Words written out (R151) -/

/-- A word that the encoder spells decodes. -/
theorem decode_eq_ok {w : InstrWord} {i : Instr} (hwf : i.wf = true) (h : encode i = w) : decode w = .ok i :=
  h ▸ encodingRoundTrip.1 i hwf

/-- Settles O1: a word that the encoder spells decodes to its instruction; the rest are rejected. -/
theorem spelledWordsDecode : Obligations.SpelledWordsDecode := by
  refine ⟨decode_eq_ok rfl ?_, ?_, decode_eq_ok rfl ?_, decode_eq_ok rfl ?_, decode_eq_ok rfl ?_, ?_, ?_,
    decode_eq_ok rfl ?_, decode_eq_ok rfl ?_, ?_⟩
  all_goals decide

end Sys2Proof.Machine
end

section
/-! PROOF of O2 and O3, the instruction cycle (R33, R140, R200, R538). What a cycle does is said once for each outcome of
its fetch. A turn without a host access is a cycle (log 5). -/

namespace Sys2Proof.Machine

/-! ### Fetching -/

theorem fetchFault_misaligned {s : State} (h : s.pc.toNat % 8 ≠ 0) : fetchFault s = some ⟨.fetchMisaligned, s.pc⟩ :=
  if_pos h

theorem fetchFault_oob {s : State} (hal : s.pc.toNat % 8 = 0) (hout : s.params.imemSize < s.pc.toNat + 8) :
    fetchFault s = some ⟨.fetchOob, s.pc⟩ := by
  rw [fetchFault, if_neg (not_not_intro hal), if_pos hout]

theorem fetchFault_none {s : State} (hal : s.pc.toNat % 8 = 0) (hin : s.pc.toNat + 8 ≤ s.params.imemSize) :
    fetchFault s = none := by
  rw [fetchFault, if_neg (not_not_intro hal), if_neg (Nat.not_lt.mpr hin)]

section
variable {s : State} {lo hi : Word} (hlo : memWord s.imem s.pc.toNat = some lo)
  (hhi : memWord s.imem (s.pc.toNat + 4) = some hi)
include hlo hhi

theorem fetchWords_written : fetchWords s = ([lo, hi], s.drawCtr) := by
  refine loadWords_written rfl fun i hi2 => ?_
  match i, hi2 with
  | 0, _ => exact hlo
  | 1, _ => exact hhi

/-- R140: bits 31:0 come first. -/
theorem fetchWord_written : fetchWord s = hi ++ lo := by
  rw [fetchWord, fetchWords_written hlo hhi]
  rfl

/-- R107: a fetch of written words draws nothing. -/
theorem afterFetch_written : s.afterFetch = s := by
  rw [State.afterFetch, fetchWords_written hlo hhi]

end

/-! ### One cycle (R200) -/

section
variable {s : State} (hrun : s.runState = .running)
include hrun

theorem cycle_fetchFault {x : Exc} (h : fetchFault s = some x) : cycle s = raise s x := by
  simp only [cycle, hrun, h]

/-- Items 3 to 5: the word at pc is run on the state as it is. -/
theorem cycle_written {lo hi : Word} (hal : s.pc.toNat % 8 = 0) (hin : s.pc.toNat + 8 ≤ s.params.imemSize)
    (hlo : memWord s.imem s.pc.toNat = some lo) (hhi : memWord s.imem (s.pc.toNat + 4) = some hi) :
    cycle s = runWord (hi ++ lo) s := by
  simp only [cycle, hrun, fetchFault_none hal hin, fetchWord_written hlo hhi, afterFetch_written hlo hhi]

end

/-- R538: the sequencer's turn while STATE ≠ RUNNING. -/
theorem cycle_of_not_running {s : State} (h : s.runState ≠ .running) : cycle s = .next s := by
  unfold cycle
  cases hrun : s.runState with
  | running => exact absurd hrun h
  | idle | halted | faulted => rfl

theorem runWord_decoded {w : InstrWord} {i : Instr} (h : decode w = .ok i) (s : State) : runWord w s = exec i s := by
  simp only [runWord, h]

/-- R522: FAULT_INFO of ILLEGAL_INSTR is the word's low half. -/
theorem runWord_rejected {lo hi : Word} {r : Reject} (h : decode (hi ++ lo) = .error r) (s : State) :
    runWord (hi ++ lo) s = raise s ⟨.illegalInstr, lo⟩ := by
  simp only [runWord, h, Exc.illegalInstr, BitVec.extractLsb'_append_eq_right]

/-! ### One turn (log 5) -/

theorem step_no_host {s : State} (h : s.hostIn = []) : step s = cycle s := by
  rw [step, turn, h]

theorem step_quiet {s : State} {rest : List HostTurn} (h : s.hostIn = .quiet :: rest) :
    step s = cycle { s with hostIn := rest } := by
  rw [step, turn, h]

/-- Settles O2: the cycle of a written word that decodes, on the state with the quiet turn consumed or as it is. -/
theorem stepRunsTheDecodedInstruction : Obligations.StepRunsTheDecodedInstruction := by
  intro s lo hi i hrun hal hin hlo hhi hdec
  refine ⟨fun hq => ?_, fun rest hq => ?_⟩
  · rw [step_no_host hq, cycle_written hrun hal hin hlo hhi, runWord_decoded hdec]
  · rw [step_quiet hq, cycle_written (s := { s with hostIn := rest }) hrun hal hin hlo hhi, runWord_decoded hdec]

/-- Settles O3: the three faults of a cycle in their order, and the turn of a waiting state. -/
theorem cycleFaultsAndWaitStates : Obligations.CycleFaultsAndWaitStates := by
  refine ⟨fun s hrun hq => ⟨fun hmis => ?_, fun hal hout => ?_, fun lo hi r hal hin hlo hhi hdec => ?_⟩,
    fun s hrun => ⟨fun hq => ?_, fun rest hq => ?_⟩⟩
  · rw [step_no_host hq, cycle_fetchFault hrun (fetchFault_misaligned hmis), raise]
  · rw [step_no_host hq, cycle_fetchFault hrun (fetchFault_oob hal hout), raise]
  · rw [step_no_host hq, cycle_written hrun hal hin hlo hhi, runWord_rejected hdec, raise]
  · rw [step_no_host hq, cycle_of_not_running hrun]
  · rw [step_quiet hq, cycle_of_not_running (s := { s with hostIn := rest }) hrun]

end Sys2Proof.Machine
end

section
/-! PROOF of O7, O9, O10, O11 and O12: the system, scalar and control instructions (R202, R210 to R230). Each shape of
Machine/Scalar.lean and Machine/Control.lean gets one equation for readable operands, and each result its spelling in
the rule. -/

namespace Sys2Proof.Machine

/-! ### Scalar writes (R202) -/

theorem State.setS_zero (s : State) (v : Word) : s.setS 0 v = s := if_pos rfl

theorem State.getS_setS_same {s : State} {d : SIdx} (hd : d ≠ 0) (v : Word) : (s.setS d v).getS d = some v := by
  rw [State.getS_setS, if_neg hd, if_pos rfl]

theorem State.getS_setS_of_ne {s : State} {d j : SIdx} (hj : j ≠ d) (v : Word) : (s.setS d v).getS j = s.getS j := by
  rw [State.getS_setS, if_neg hj]
  split
  case isTrue h0 => rw [h0, State.getS_zero]
  case isFalse => rfl

/-- Settles O9. -/
theorem scalarWriteRule : Obligations.ScalarWriteRule := by
  intro s d j v
  refine ⟨fun hd => ?_, State.getS_zero _, fun hd => State.getS_setS_same hd v, fun hj => State.getS_setS_of_ne hj v⟩
  rw [hd, State.setS_zero]

/-! ### System and CSR instructions (R210 to R213) -/

section
variable {s : State}

theorem execCsrr_listed {c : Nat} {v : Word} (h : csrRead s c = some v) (d : SIdx) :
    execCsrr d c s = .next (s.setS d v).advance := by
  simp only [execCsrr, h, done]

theorem execCsrr_unlisted {c : Nat} (h : csrRead s c = none) (d : SIdx) :
    execCsrr d c s = .next (s.takeFault (.illegalCsr c)) := by
  simp only [execCsrr, h, raise]

/-- R213: a read-write number passes the first check. -/
theorem execCsrw_rw {c : Nat} (hc : c < 10) (a : SIdx) :
    execCsrw a c s = withS s a fun v => done (s.setCsr c v) :=
  need_true (decide_eq_true hc) ..

theorem execCsrw_not_rw {c : Nat} (hc : 10 ≤ c) (a : SIdx) :
    execCsrw a c s = .next (s.takeFault (.illegalCsr c)) :=
  need_false (decide_eq_false (Nat.not_lt.mpr hc)) ..

end

/-- Settles O7: the number is looked up, or checked before the source. -/
theorem systemAndCsrResults : Obligations.SystemAndCsrResults := by
  refine ⟨fun s => ⟨rfl, rfl⟩, fun s r c => ⟨fun v hv => execCsrr_listed hv r, fun hn => execCsrr_unlisted hn r,
    fun hc v hv => ⟨?_, csrRead_setCsr s hc v⟩, fun hc hn => ?_, fun hc => execCsrw_not_rw hc r⟩⟩
  · exact (execCsrw_rw hc r).trans (withS_some hv _)
  · exact (execCsrw_rw hc r).trans (withS_none hn _)

/-! ### Scalar arithmetic (R214 to R221) -/

theorem scalarBin_of_readable {s : State} {a b : SIdx} {x y : Word} (ha : s.getS a = some x) (hb : s.getS b = some y)
    (f : Word → Word → Word) (d : SIdx) : scalarBin f d a b s = .next (s.setS d (f x y)).advance := by
  rw [scalarBin, withS_some ha, withS_some hb, done]

/-- R218: the low 32 bits of the exact product. -/
theorem mul_eq_ofNat (x y : Word) : x * y = BitVec.ofNat 32 (x.toNat * y.toNat) := by
  rw [BitVec.ofNat_mul, BitVec.ofNat_toNat, BitVec.ofNat_toNat, BitVec.setWidth_eq, BitVec.setWidth_eq]

theorem shiftLeft32_eq (x sh : Word) : shiftLeft32 x sh = if 32 ≤ sh.toNat then 0 else x <<< sh.toNat := by
  have hshift : BitVec.ofNat 32 (x.toNat * 2 ^ sh.toNat) = x <<< sh.toNat :=
    BitVec.eq_of_toNat_eq (by rw [BitVec.toNat_ofNat, BitVec.toNat_shiftLeft, Nat.shiftLeft_eq])
  rw [shiftLeft32, hshift]

theorem shiftRight32_eq (x sh : Word) : shiftRight32 x sh = if 32 ≤ sh.toNat then 0 else x >>> sh.toNat := by
  have hshift : BitVec.ofNat 32 (x.toNat / 2 ^ sh.toNat) = x >>> sh.toNat := by
    rw [← Nat.shiftRight_eq_div_pow, ← BitVec.toNat_ushiftRight, BitVec.ofNat_toNat, BitVec.setWidth_eq]
  rw [shiftRight32, hshift]

/-- Settles O10: the shape's equation, and the results that the rules spell otherwise than the meanings. -/
theorem scalarArithmeticResults : Obligations.ScalarArithmeticResults := by
  intro s d a b imm x y
  refine ⟨rfl, fun ha => withS_some ha _, fun ha hb => ?_⟩
  have hbin (f : Word → Word → Word) : scalarBin f d a b s = .next (s.setS d (f x y)).advance :=
    scalarBin_of_readable ha hb f d
  rw [← mul_eq_ofNat, ← shiftLeft32_eq, ← shiftRight32_eq]
  exact ⟨hbin _, hbin _, hbin _, hbin _, hbin _, hbin _⟩

/-! ### Scalar loads and stores (R222, R223) -/

section
variable {s : State} {a : SIdx} {imm base : Word} (ha : s.getS a = some base) (hspan : s.spanOk (base + imm) 4)
include ha hspan

/-- R108: with a readable base and a span in order, S.LW completes. -/
theorem execSLw_of_span (d : SIdx) : execSLw d a imm s =
    .next ((s.afterLoad (base + imm) 1).setS d (coeff (loaded s (base + imm) 1) 0)).advance := by
  obtain ⟨hal, hin⟩ := hspan
  rw [execSLw, withS_some ha, effAddr, needSpan_ok hal hin, done]

theorem execSSw_of_span {d : SIdx} {v : Word} (hd : s.getS d = some v) :
    execSSw d a imm s = .next (s.store (base + imm).toNat [v]).advance := by
  obtain ⟨hal, hin⟩ := hspan
  rw [execSSw, withS_some ha, withS_some hd, effAddr, needSpan_ok hal hin, done]

end

/-- R107: a never-written word costs one draw. -/
theorem afterLoad_unwritten {s : State} {ea : Word} (h : memWord s.dmem ea.toNat = none) :
    s.afterLoad ea 1 = s.bump 1 := by
  have hspan : spanWritten s.dmem ea.toNat 1 = false := by simp [spanWritten, h]
  simp [State.afterLoad, State.bump, loadWords, hspan]

/-- Settles O11: a written word is loaded without a draw, a never-written one with one; a stored word reads back. -/
theorem scalarLoadStoreResults : Obligations.ScalarLoadStoreResults := by
  intro s d a imm base ha hspan
  have hload := execSLw_of_span ha hspan d
  refine ⟨fun v hv => ?_, fun hn => ?_, fun v hd => ⟨execSSw_of_span ha hspan hd, memWord_memSetWord ..⟩⟩
  · obtain ⟨hword, hdraws⟩ := loaded_written s (base + imm) 1 (fun _ => v) fun i hi => by
      obtain rfl := Nat.lt_one_iff.mp hi; exact hv
    rw [hword, hdraws] at hload
    exact hload
  · rw [afterLoad_unwritten hn] at hload
    exact ⟨_, hload⟩

/-! ### Branches and jumps (R224 to R230) -/

theorem branch_of_readable {s : State} {a b : SIdx} {x y : Word} (ha : s.getS a = some x) (hb : s.getS b = some y)
    (cond : Word → Word → Bool) (imm : Word) :
    branch cond a b imm s = .next { s with pc := if cond x y then s.pc + imm else s.pc + 8 } := by
  rw [branch, withS_some ha, withS_some hb]
  split <;> rfl

/-- Settles O12: the shape's equation, and the four conditions as propositions. -/
theorem branchAndJumpResults : Obligations.BranchAndJumpResults := by
  refine ⟨fun s a b imm x y ha hb => ?_, fun s d a imm x => ⟨rfl, rfl, fun ha => withS_some ha _⟩⟩
  have hbranch (cond : Word → Word → Bool) := branch_of_readable ha hb cond imm
  refine ⟨(hbranch condEq).trans ?_, (hbranch condNe).trans ?_, (hbranch condLt).trans ?_, (hbranch condLtu).trans ?_⟩
  · simp only [condEq, beq_iff_eq]
  · simp only [condNe, bne_iff_ne, ite_not]
  · simp only [condLt, decide_eq_true_eq]
  · simp only [condLtu, decide_eq_true_eq]

end Sys2Proof.Machine
end

section
/-! PROOF of O53, the sequential pc advance (R203, R211, R523). Every check faults, which leaves pc, or goes on with the
state it was given; and what a meaning writes before it completes leaves pc and STATE. So each instruction's proof
follows its meaning to `done`, which advances pc, or to its jump. -/

namespace Sys2Proof.Machine

/-- R203, R211: what the rules ask of pc after an instruction. -/
structure PcRule (i : Instr) (s t : State) : Prop where
  faulted : t.runState = .faulted → t.pc = s.pc
  sequential : t.runState ≠ .faulted → isControl i = false → t.pc = s.pc + 8
  halt : i = .halt → t.pc = s.pc

section
variable {i : Instr} {s t : State}

/-- R523: a fault leaves pc at its own address. -/
theorem pcRule_takeFault (hpc : t.pc = s.pc) (x : Exc) : PcRule i s (t.takeFault x) where
  faulted _ := hpc
  sequential hok := absurd rfl hok
  halt _ := hpc

/-- The rule as a property that every fault has. -/
theorem pcRule_faults (i : Instr) (s : State) : ∀ x : Exc, x.cause ≠ .none → PcRule i s (s.takeFault x) :=
  fun x _ => pcRule_takeFault rfl x

theorem pcRule_halt (s : State) : PcRule .halt s s.halt where
  faulted _ := rfl
  sequential _ hc := Bool.noConfusion hc
  halt _ := rfl

variable (hrun : s.runState = .running)
include hrun

/-- R203: an instruction that is no control transfer completes by advancing pc. -/
theorem done_pcRule (hc : isControl i = false) (hst : t.runState = s.runState := by simp)
    (hpc : t.pc = s.pc := by simp) : Answers (done t) (PcRule i s) := by
  refine (done_answers t).mpr ⟨fun hf => ?_, fun _ _ => ?_, fun hi => ?_⟩
  · rw [State.advance_runState, hst, hrun] at hf; cases hf
  · rw [State.advance_pc, hpc]
  · rw [hi] at hc; cases hc

/-- R224 to R230: of a control transfer that completes nothing is asked. -/
theorem next_pcRule (hc : isControl i = true) (hi : i ≠ .halt)
    (hst : t.runState = s.runState := by simp) : Answers (.next t) (PcRule i s) := by
  refine (next_answers t).mpr ⟨fun hf => ?_, fun _ hc' => ?_, fun hi' => absurd hi' hi⟩
  · rw [hst, hrun] at hf; cases hf
  · rw [hc] at hc'; cases hc'

end

section
variable {s : State} (hrun : s.runState = .running)
include hrun

/-! ### The shapes that several instructions share -/

section
variable {i : Instr} (hc : isControl i = false)
include hc

theorem scalarBin_pcRule (f : Word → Word → Word) (d a b : SIdx) : Answers (scalarBin f d a b s) (PcRule i s) := by
  have hf := pcRule_faults i s
  exact answers_withS hf fun _ => answers_withS hf fun _ => done_pcRule hrun hc

theorem polyBin_pcRule (f : Word → Word → Word) (d a b : PIdx) : Answers (polyBin f d a b s) (PcRule i s) := by
  have hf := pcRule_faults i s
  exact answers_needN hf fun _ => answers_withP hf fun _ => answers_withP hf fun _ => answers_tagP hf <|
    answers_tagP hf <| done_pcRule hrun hc

theorem polyMono_pcRule (f : Nat → List Word → List Word) (d a : PIdx) (b : SIdx) :
    Answers (polyMono f d a b s) (PcRule i s) := by
  have hf := pcRule_faults i s
  exact answers_needN hf fun _ => answers_withP hf fun _ => answers_withS hf fun _ => answers_tagP hf <|
      answers_needBelow hf fun _ => done_pcRule hrun hc

theorem forward_pcRule (cls : List Int → ErrClass) (d : FIdx) (a : PIdx) :
    Answers (forward cls d a s) (PcRule i s) := by
  have hf := pcRule_faults i s
  exact answers_needN hf fun _ => answers_withP hf fun _ => answers_tagP hf <| done_pcRule hrun hc

theorem lweEnc_pcRule (sel : KeySel) (d : LIdx) (a : SIdx) : Answers (lweEnc sel d a s) (PcRule i s) := by
  have hf := pcRule_faults i s
  exact answers_needSel hf fun _ => answers_withS hf fun _ => answers_withKey hf fun _ _ =>
      answers_tagKey hf <| done_pcRule hrun hc

theorem lweDec_pcRule (sel : KeySel) (d : SIdx) (a : LIdx) (b : SIdx) :
    Answers (lweDec sel d a b s) (PcRule i s) := by
  have hf := pcRule_faults i s
  exact answers_needSel hf fun _ => answers_withL hf fun _ _ => answers_withS hf fun _ =>
      answers_withKey hf fun _ _ => answers_tagL hf fun _ => answers_tagKey hf <| answers_needModulus hf <|
        done_pcRule hrun hc

theorem lwePhase_pcRule (sel : KeySel) (d : SIdx) (a : LIdx) : Answers (lwePhase sel d a s) (PcRule i s) := by
  have hf := pcRule_faults i s
  exact answers_needSel hf fun _ => answers_withL hf fun _ _ => answers_withKey hf fun _ _ =>
      answers_tagL hf fun _ => answers_tagKey hf <| done_pcRule hrun hc

theorem lweTriv_pcRule (sel : KeySel) (d : LIdx) (a : SIdx) : Answers (lweTriv sel d a s) (PcRule i s) := by
  have hf := pcRule_faults i s
  exact answers_needSel hf fun _ => answers_withS hf fun _ => done_pcRule hrun hc

theorem lweAcc_pcRule (f : LReg → LReg → LReg) (d a : LIdx) : Answers (lweAcc f d a s) (PcRule i s) := by
  have hf := pcRule_faults i s
  exact answers_withL hf fun _ _ => answers_withL hf fun _ _ => answers_tagL hf fun _ => done_pcRule hrun hc

theorem lweAccMul_pcRule (f : Word → LReg → LReg → LReg) (d a : LIdx) (b : SIdx) :
    Answers (lweAccMul f d a b s) (PcRule i s) := by
  have hf := pcRule_faults i s
  exact answers_withL hf fun _ _ => answers_withS hf fun _ => answers_withL hf fun _ _ =>
      answers_tagL hf fun _ => done_pcRule hrun hc

theorem lweLoad_pcRule (sel : KeySel) (d : LIdx) (a : SIdx) (imm : Word) :
    Answers (lweLoad sel d a imm s) (PcRule i s) := by
  have hf := pcRule_faults i s
  exact answers_needSel hf fun _ => answers_withS hf fun _ => answers_needSpan hf fun _ => done_pcRule hrun hc

theorem rlweAcc_pcRule (f : Word → Word → Word) (d a : RIdx) : Answers (rlweAcc f d a s) (PcRule i s) := by
  have hf := pcRule_faults i s
  exact answers_needRing hf fun _ _ => answers_withR hf fun _ _ => answers_withR hf fun _ _ =>
      answers_tagR hf <| answers_tagR hf <| done_pcRule hrun hc

end

theorem branch_pcRule {i : Instr} (hc : isControl i = true) (hi : i ≠ .halt) (cond : Word → Word → Bool)
    (a b : SIdx) (imm : Word) : Answers (branch cond a b imm s) (PcRule i s) := by
  have hf := pcRule_faults i s
  refine answers_withS hf fun x => answers_withS hf fun y => ?_
  split
  · exact next_pcRule hrun hc hi
  · exact next_pcRule hrun hc hi

/-! ### Every instruction -/

theorem execCsrr_pcRule (d : SIdx) (c : Nat) : Answers (execCsrr d c s) (PcRule (.csrr d c) s) := by
  unfold execCsrr
  cases csrRead s c with
  | none => exact (raise_answers ..).mpr (pcRule_takeFault rfl _)
  | some v => exact done_pcRule hrun rfl

/-- R440: the run of P writes leaves pc and STATE. -/
theorem execGDecomp_pcRule (d a : PIdx) : Answers (execGDecomp d a s) (PcRule (.gDecomp d a) s) := by
  have hf := pcRule_faults (.gDecomp d a) s
  exact answers_needN hf fun _ => answers_needGad hf fun _ => answers_withP hf fun _ => answers_tagP hf <|
    answers_need hf Cause.noConfusion fun _ =>
      done_pcRule hrun rfl (setPs_keeps _ (fun _ _ => rfl) ..) (setPs_keeps _ (fun _ _ => rfl) ..)

/-- Every instruction that runs leaves pc as its rule says: its checks in order, then its writes. -/
theorem exec_pcRule (i : Instr) : Answers (exec i s) (PcRule i s) := by
  have hf := pcRule_faults i s
  unfold exec
  cases i with
  -- system, scalar and control (40_sequencer.md)
  | halt => exact (next_answers _).mpr (pcRule_halt s)
  | beq | bne | blt | bltu => exact branch_pcRule hrun rfl Instr.noConfusion ..
  | jmp | jal => exact next_pcRule hrun rfl Instr.noConfusion
  | jr => exact answers_withS hf fun _ => next_pcRule hrun rfl Instr.noConfusion
  | nop | sLi => exact done_pcRule hrun rfl
  | csrr d c => exact execCsrr_pcRule hrun d c
  | csrw => exact answers_need hf Cause.noConfusion fun _ => answers_withS hf fun _ => done_pcRule hrun rfl
  | sAddi => exact answers_withS hf fun _ => done_pcRule hrun rfl
  | sAdd | sSub | sMul | sAnd | sSll | sSrl => exact scalarBin_pcRule hrun rfl ..
  | sLw => exact answers_withS hf fun _ => answers_needSpan hf fun _ => done_pcRule hrun rfl
  | sSw => exact answers_withS hf fun _ => answers_withS hf fun _ => answers_needSpan hf fun _ => done_pcRule hrun rfl
  -- torus scalar (41_torus.md)
  | mswF | aphase =>
    exact answers_withS hf fun _ => answers_withS hf fun _ => answers_needModulus hf <| done_pcRule hrun rfl
  | mswT =>
    exact answers_withS hf fun _ => answers_withS hf fun _ => answers_needModulus hf <|
      answers_needBelow hf fun _ => done_pcRule hrun rfl
  | gauss => exact answers_withS hf fun _ => done_pcRule hrun rfl
  -- polynomial ring and FFT engine (42_polynomial.md, 43_fft.md)
  | pClr | fClr => exact answers_needN hf fun _ => done_pcRule hrun rfl
  | pAdd | pSub => exact polyBin_pcRule hrun rfl ..
  | pMulfft =>
    exact answers_needN hf fun _ => answers_withP hf fun _ => answers_withP hf fun _ => answers_tagP hf <|
      answers_tagP hf <| done_pcRule hrun rfl
  | pAddmulz =>
    exact answers_needN hf fun _ => answers_withP hf fun _ => answers_withS hf fun _ => answers_withP hf fun _ =>
      answers_tagP hf <| answers_tagP hf <| done_pcRule hrun rfl
  | pMulxai | pMulxaim1 => exact polyMono_pcRule hrun rfl ..
  | pLd =>
    exact answers_needN hf fun _ => answers_withS hf fun _ => answers_needSpan hf fun _ => done_pcRule hrun rfl
  | pSt =>
    exact answers_needN hf fun _ => answers_withS hf fun _ => answers_withP hf fun _ => answers_tagP hf <|
      answers_needSpan hf fun _ => done_pcRule hrun rfl
  | fFwdi | fFwdt => exact forward_pcRule hrun rfl ..
  | fInv => exact answers_needN hf fun _ => answers_withF hf fun _ _ => answers_tagF hf <| done_pcRule hrun rfl
  | fMuladd =>
    exact answers_needN hf fun _ => answers_withF hf fun _ _ => answers_withF hf fun _ _ =>
      answers_withF hf fun _ _ => answers_tagF hf <| answers_tagF hf <| answers_tagF hf <| done_pcRule hrun rfl
  | fMono =>
    exact answers_needN hf fun _ => answers_withS hf fun _ => answers_needBelow hf fun _ => done_pcRule hrun rfl
  -- LWE (44_lwe.md)
  | lEnc | lEncX => exact lweEnc_pcRule hrun rfl ..
  | lDec | lDecX => exact lweDec_pcRule hrun rfl ..
  | lPhase | lPhaseX => exact lwePhase_pcRule hrun rfl ..
  | lTriv | lTrivX => exact lweTriv_pcRule hrun rfl ..
  | lAdd | lSub => exact lweAcc_pcRule hrun rfl ..
  | lAddmul | lSubmul => exact lweAccMul_pcRule hrun rfl ..
  | lNeg | lCopy => exact answers_withL hf fun _ _ => done_pcRule hrun rfl
  | lLd | lLdX => exact lweLoad_pcRule hrun rfl ..
  | lSt =>
    exact answers_withS hf fun _ => answers_withL hf fun _ _ => answers_needSpan hf fun _ => done_pcRule hrun rfl
  | keyLdl =>
    exact answers_needLwe hf fun _ => answers_withS hf fun _ => answers_needSpan hf fun _ =>
      answers_needKeyWords (fun _ _ => pcRule_takeFault (State.afterLoad_pc ..) _) <|
        done_pcRule hrun rfl
  -- RLWE (45_rlwe.md)
  | rEnc0 => exact answers_needRing hf fun _ _ => answers_withKeyR hf fun _ => done_pcRule hrun rfl
  | rEnc =>
    exact answers_needRing hf fun _ _ => answers_withP hf fun _ => answers_tagP hf <|
      answers_withKeyR hf fun _ => done_pcRule hrun rfl
  | rPhase =>
    exact answers_needRing hf fun _ _ => answers_withR hf fun _ _ => answers_tagR hf <|
      answers_withKeyR hf fun _ => done_pcRule hrun rfl
  | rTriv => exact answers_needRing hf fun _ _ => answers_withP hf fun _ => answers_tagP hf <| done_pcRule hrun rfl
  | rAdd | rSub => exact rlweAcc_pcRule hrun rfl ..
  | rAddmulr =>
    exact answers_needRing hf fun _ _ => answers_withP hf fun _ => answers_withR hf fun _ _ =>
      answers_withR hf fun _ _ => answers_tagP hf <| answers_tagR hf <| answers_tagR hf <| done_pcRule hrun rfl
  | rMulxaim1 | rExtract =>
    exact answers_needRing hf fun _ _ => answers_withR hf fun _ _ => answers_withS hf fun _ =>
      answers_tagR hf <| answers_needBelow hf fun _ => done_pcRule hrun rfl
  | rLd =>
    exact answers_needRing hf fun _ _ => answers_withS hf fun _ => answers_needSpan hf fun _ => done_pcRule hrun rfl
  | rSt =>
    exact answers_needRing hf fun _ _ => answers_withS hf fun _ => answers_withR hf fun _ _ => answers_tagR hf <|
      answers_needSpan hf fun _ => done_pcRule hrun rfl
  | keyLdr =>
    exact answers_needRing hf fun _ _ => answers_withS hf fun _ => answers_needSpan hf fun _ =>
      answers_needKeyWords (fun _ _ => pcRule_takeFault (State.afterLoad_pc ..) _) <|
        done_pcRule hrun rfl
  -- RGSW (46_rgsw.md)
  | gDecomp d a => exact execGDecomp_pcRule hrun d a
  | gEnc =>
    exact answers_needRing hf fun _ _ => answers_needGad hf fun _ => answers_withS hf fun _ =>
      answers_withS hf fun _ => answers_withKeyR hf fun _ => answers_needBelow hf fun _ => done_pcRule hrun rfl
  | gLd =>
    exact answers_needRing hf fun _ _ => answers_needGad hf fun _ => answers_withS hf fun _ =>
      answers_withS hf fun _ => answers_needBelow hf fun _ => answers_needSpan hf fun _ => done_pcRule hrun rfl
  | gExtprod =>
    exact answers_needRing hf fun _ _ => answers_needGad hf fun _ => answers_withR hf fun _ _ =>
      answers_withS hf fun _ => answers_tagR hf <| answers_needBelow hf fun _ => answers_withSlot hf fun _ =>
        done_pcRule hrun rfl
  -- key switching and bootstrapping (47_keyswitch.md, 48_bootstrap.md)
  | ks =>
    exact answers_needRing hf fun _ _ => answers_needLwe hf fun _ => answers_needKs hf <|
      answers_withL hf fun _ _ => answers_tagL hf fun _ => answers_needKsk hf <| done_pcRule hrun rfl
  | brRot | bootNks => exact answers_needBoot hf fun _ _ _ _ _ => done_pcRule hrun rfl
  | boot => exact answers_needBoot hf fun _ _ _ _ _ => answers_needKsk hf <| done_pcRule hrun rfl

end

/-- Settles O53: the rule of every outcome, applied to the one answered. -/
theorem sequentialPcAdvance : Obligations.SequentialPcAdvance := by
  intro i s t hrun ht
  obtain ⟨hfaulted, hsequential, hhalt⟩ := (exec_pcRule hrun i).of_eq ht
  exact ⟨hfaulted, hsequential, hhalt⟩

end Sys2Proof.Machine
end

section
/-! PROOF of O13 and O14: the modulus switches and the torus instructions (R261 to R268). The switch to the torus
is the whole number nearest to μ · 2^32 / M, so M times it misses μ · 2^32 by at most M / 2; with M below 2^32 that is
less than the half unit that the switch back rounds away. -/

namespace Sys2Proof.Machine

/-! ### The modulus switches (R261, R262) -/

section
variable {m mu : Nat}

/-- R262: `mstot(μ, M)` is within one half of μ · 2^32 / M (here times 2M). -/
theorem mstot_nearest (hm : 1 ≤ m) :
    2 * (mstot mu m * m) ≤ 2 * mu * 2 ^ 32 + m ∧ 2 * mu * 2 ^ 32 < 2 * (mstot mu m * m) + m := by
  have hrem : (2 * mu * 2 ^ 32 + m) % (2 * m) < 2 * m := Nat.mod_lt _ (by omega)
  have hdiv : 2 * m * mstot mu m + (2 * mu * 2 ^ 32 + m) % (2 * m) = 2 * mu * 2 ^ 32 + m := Nat.div_add_mod ..
  rw [Nat.mul_assoc, Nat.mul_comm m] at hdiv
  omega

theorem mstot_lt (hm : 1 ≤ m) (hm32 : m < 2 ^ 32) (hmu : mu < m) : mstot mu m < 2 ^ 32 := by
  obtain ⟨hupper, -⟩ := mstot_nearest (mu := mu) hm
  have hproduct : mstot mu m * m < 2 ^ 32 * m := by omega
  exact Nat.lt_of_mul_lt_mul_right hproduct

theorem msfrom_lt (hm : 1 ≤ m) (x : Word) : msfrom x m < m := Nat.mod_lt _ hm

/-- R261: the switch back undoes the switch to the torus. -/
theorem msfrom_mstot (hm : 1 ≤ m) (hm32 : m < 2 ^ 32) (hmu : mu < m) :
    msfrom (BitVec.ofNat 32 (mstot mu m)) m = mu := by
  obtain ⟨hupper, hlower⟩ := mstot_nearest (mu := mu) hm
  have hround : (mstot mu m * m + 2 ^ 31) / 2 ^ 32 = mu := by omega
  rw [msfrom, BitVec.toNat_ofNat, Nat.mod_eq_of_lt (mstot_lt hm hm32 hmu), hround, Nat.mod_eq_of_lt hmu]

end

/-- Settles O14: the switch to the torus fits, and its rounding error is too small for the switch back to see. -/
theorem modulusSwitchRoundTrip : Obligations.ModulusSwitchRoundTrip := by
  intro m mu hm hm32 hmu
  exact ⟨mstot_lt hm hm32 hmu, msfrom_mstot hm hm32 hmu, msfrom_lt hm⟩

/-! ### The checks of the operands (R265 to R267) -/

section
variable {s : State} {x m : Word}

theorem needModulus_zero (k : Unit → Result) : needModulus s 0 k = raise s (.badOperand 0) := need_false rfl ..

theorem needBelow_not {lim : Nat} (h : lim ≤ x.toNat) (k : Unit → Result) :
    needBelow s x lim k = raise s (.badOperand x) := need_false (decide_eq_false (Nat.not_lt.mpr h)) ..

variable {a b : SIdx} (ha : s.getS a = some x)
include ha

/-- What MSW.F, MSW.T and APHASE check first, in order: μ, M, and M ≠ 0. -/
theorem withModulus_ok (hb : s.getS b = some m) (hm : m ≠ 0) (k : Word → Word → Result) :
    (withS s a fun x => withS s b fun m => needModulus s m fun _ => k x m) = k x m := by
  rw [withS_some ha, withS_some hb, needModulus_ok hm]

theorem withModulus_zero (hb : s.getS b = some 0) (k : Word → Word → Result) :
    (withS s a fun x => withS s b fun m => needModulus s m fun _ => k x m) = .next (s.takeFault (.badOperand 0)) := by
  rw [withS_some ha, withS_some hb, needModulus_zero, raise]

/-! ### The instructions (R265 to R268) -/

theorem execMswT_of_lt (hb : s.getS b = some m) (hm : m ≠ 0) (hx : x.toNat < m.toNat) (d : SIdx) :
    execMswT d a b s = .next (s.setS d (BitVec.ofNat 32 (mstot x.toNat m.toNat))).advance := by
  rw [execMswT, withModulus_ok ha hb hm, needBelow_ok hx, done]

theorem execMswT_of_ge (hb : s.getS b = some m) (hm : m ≠ 0) (hx : m.toNat ≤ x.toNat) (d : SIdx) :
    execMswT d a b s = .next (s.takeFault (.badOperand x)) := by
  rw [execMswT, withModulus_ok ha hb hm, needBelow_not hx, raise]

/-- R268: the one draw is the one numbered by the state's counter. -/
theorem execGauss_of_readable (d : SIdx) :
    execGauss d a s = .next ((s.setS d (x + u32 (drawGauss s.alpha s.drawCtr))).bump 1).advance := by
  rw [execGauss, withS_some ha, gaussAt, done]

end

/-- Settles O13: the operands' checks, then the result that the formula gives; a draw within its bound. -/
theorem torusInstructionResults : Obligations.TorusInstructionResults := by
  refine ⟨fun s d a b x m ha hb => ⟨fun hm => ?_, fun hm => ?_⟩, fun s d a x ha => ?_⟩
  · exact ⟨withModulus_ok ha hb hm _, fun hx => execMswT_of_lt ha hb hm hx d,
      fun hx => execMswT_of_ge ha hb hm hx d, withModulus_ok ha hb hm _⟩
  · subst hm
    exact ⟨withModulus_zero ha hb _, withModulus_zero ha hb _, withModulus_zero ha hb _⟩
  · exact ⟨drawGauss s.alpha s.drawCtr, fun _ hbound => drawGauss_le hbound, execGauss_of_readable ha d⟩

end Sys2Proof.Machine
end

section
/-! PROOF of O15, O16, O17 and O18: the polynomial ring instructions and the negacyclic rotation (R280 to R298). A
vector of length N, continued to all integer positions by X^N = −1, changes its sign after N positions; rotating by e
reads it e positions back, so that rotations compose by adding their exponents. -/

open scoped BigOperators

namespace Sys2Proof.Machine

/-! ### The negacyclic continuation of a vector -/

/-- R282: coefficient `j` of a vector of length `n`, for every integer `j`: entry `j + n` is the negative of entry `j`. -/
def negacyclicAt (n : Nat) (c : List Word) (j : Int) : Word :=
  if Even (j / n) then coeff c (j % n).toNat else -coeff c (j % n).toNat

section
variable {n : Nat} (c : List Word)

/-- The continuation continues the vector. -/
theorem negacyclicAt_natCast {i : Nat} (hi : i < n) : negacyclicAt n c i = coeff c i := by
  have hquot : (i : Int) / n = 0 := Int.ediv_eq_zero_of_lt (by omega) (by omega)
  have hrem : (i : Int) % n = i := Int.emod_eq_of_lt (by omega) (by omega)
  rw [negacyclicAt, hquot, hrem, if_pos Even.zero, Int.toNat_natCast]

theorem negacyclicAt_add_mul (hn : 0 < n) (j q : Int) :
    negacyclicAt n c (j + q * n) = if Even q then negacyclicAt n c j else -negacyclicAt n c j := by
  have hn' : (n : Int) ≠ 0 := by omega
  simp only [negacyclicAt, Int.add_mul_ediv_right _ _ hn', Int.add_mul_emod_self_right, Int.even_add]
  by_cases hq : Even q
  · simp only [hq, iff_true, if_true]
  · simp only [hq, iff_false, ite_not, if_false, neg_ite, neg_neg]

/-- X^N = −1. -/
theorem negacyclicAt_sub_degree (hn : 0 < n) (j : Int) : negacyclicAt n c (j - n) = -negacyclicAt n c j := by
  have h := negacyclicAt_add_mul c hn j (-1)
  rwa [neg_one_mul, ← sub_eq_add_neg, if_neg (by decide)] at h

/-! ### The rotation (R282) -/

/-- R282: the rotation by `e` reads `e` positions back. -/
theorem coeff_rot_eq_negacyclicAt {e i : Nat} (he : e < 2 * n) (hi : i < n) :
    coeff (rot n e c) i = negacyclicAt n c (i - e) := by
  have hn : 0 < n := Nat.zero_lt_of_lt hi
  rw [coeff_rot n e c hi]
  split
  case isTrue hlow =>
    split
    case isTrue hle => rw [← negacyclicAt_natCast c (show i - e < n by omega), Nat.cast_sub hle]
    case isFalse hlt =>
      rw [← negacyclicAt_natCast c (show i + n - e < n by omega), ← negacyclicAt_sub_degree c hn]
      congr 1; omega
  case isFalse hhigh =>
    split
    case isTrue hle =>
      rw [← negacyclicAt_natCast c (show i - (e - n) < n by omega), ← negacyclicAt_sub_degree c hn]
      congr 1; omega
    case isFalse hlt =>
      have htwice : (i : Int) - e = ((i + n - (e - n) : Nat) : Int) - n - n := by omega
      rw [htwice, negacyclicAt_sub_degree c hn, negacyclicAt_sub_degree c hn, neg_neg,
        negacyclicAt_natCast c (show i + n - (e - n) < n by omega)]

/-- The continuation of a rotated vector is the continuation read `e` positions back. -/
theorem negacyclicAt_rot {e : Nat} (he : e < 2 * n) (j : Int) :
    negacyclicAt n (rot n e c) j = negacyclicAt n c (j - e) := by
  have hn : 0 < n := by omega
  have hrem : ((j % n).toNat : Int) = j % n := Int.toNat_of_nonneg (Int.emod_nonneg j (by omega))
  have hlt : (j % n).toNat < n := by have := Int.emod_lt_of_pos j (show (0 : Int) < n by omega); omega
  have hj : j - e = (j % n - e) + j / n * n := by have := Int.emod_add_ediv_mul j n; omega
  rw [hj, negacyclicAt_add_mul c hn, negacyclicAt, coeff_rot_eq_negacyclicAt c he hlt, hrem]

@[simp] theorem rot_length (n e : Nat) (c : List Word) : (rot n e c).length = n := vec_length ..

theorem rot_zero (hc : c.length = n) : rot n 0 c = c := by
  refine coeff_ext (rot_length ..) hc fun i hi => ?_
  rw [coeff_rot n 0 c hi, if_pos (Nat.zero_lt_of_lt hi), if_pos (Nat.zero_le i), Nat.sub_zero]

theorem coeff_map_neg (i : Nat) : coeff (c.map fun x => -x) i = -coeff c i :=
  List.getD_map c 0 fun x => -x

theorem rot_degree (hc : c.length = n) : rot n n c = c.map fun x => -x := by
  refine coeff_ext (rot_length ..) (by rw [List.length_map, hc]) fun i hi => ?_
  rw [coeff_rot n n c hi, if_neg (Nat.lt_irrefl n), Nat.sub_self, if_pos (Nat.zero_le i), Nat.sub_zero, coeff_map_neg]

/-- R282: exponents add modulo 2N, since 2N positions back the vector has its sign again. -/
theorem rot_rot {a b : Nat} (ha : a < 2 * n) (hb : b < 2 * n) :
    rot n a (rot n b c) = rot n ((a + b) % (2 * n)) c := by
  have hn : 0 < n := by omega
  have hsum : (a + b) % (2 * n) < 2 * n := Nat.mod_lt _ (by omega)
  refine coeff_ext (rot_length ..) (rot_length ..) fun i hi => ?_
  have hshift : (i : Int) - ((a + b) % (2 * n) : Nat) = (i - a - b) + (2 * ((a + b) / (2 * n) : Nat) : Int) * n := by
    have hdiv : (((a + b) % (2 * n) + 2 * n * ((a + b) / (2 * n)) : Nat) : Int) = (a + b : Nat) :=
      congrArg _ (Nat.mod_add_div (a + b) (2 * n))
    push_cast at hdiv ⊢
    linarith
  rw [coeff_rot_eq_negacyclicAt _ ha hi, negacyclicAt_rot c hb, coeff_rot_eq_negacyclicAt c hsum hi, hshift,
    negacyclicAt_add_mul c hn, if_pos (even_two_mul _)]

end

/-! ### The rotation as a product (R17, R282) -/

/-- R17: the product with a vector that has one entry other than 0. -/
theorem nprodAt_single {n p i : Nat} {x : List Int} {v : Int} (hp : p < n) (hi : i < n)
    (hx : ∀ j, j < n → icoeff x j = if p = j then v else 0) (y : List Int) :
    nprodAt n x y i = if p ≤ i then v * icoeff y (i - p) else -(v * icoeff y (i + n - p)) := by
  have hterm (z : Int) (j : Nat) (hj : j < n) : icoeff x j * z = if p = j then v * z else 0 := by
    rw [hx j hj, ite_mul, zero_mul]
  have hlow : ∑ j ∈ Finset.range (i + 1), icoeff x j * icoeff y (i - j) =
      if p ≤ i then v * icoeff y (i - p) else 0 := by
    rw [Finset.sum_congr rfl fun j hj => hterm _ j (by simp only [Finset.mem_range] at hj; omega)]
    simp
  have hhigh : ∑ j ∈ Finset.Ico (i + 1) n, icoeff x j * icoeff y (i + n - j) =
      if i < p then v * icoeff y (i + n - p) else 0 := by
    rw [Finset.sum_congr rfl fun j hj => hterm _ j (Finset.mem_Ico.mp hj).2]
    simp [hp]
  rw [nprodAt, hlow, hhigh]
  split
  case isTrue hle => rw [if_neg (Nat.not_lt.mpr hle), sub_zero]
  case isFalse hgt => rw [if_pos (Nat.not_le.mp hgt), zero_sub]

theorem icoeff_monomial_of_lt {n a : Nat} (ha : a < n) (j : Nat) (hj : j < n) :
    icoeff (monomial n a) j = if a = j then 1 else 0 := by
  rw [monomial, icoeff_vec, if_pos hj, if_neg (show ¬ a = j + n by omega)]

theorem icoeff_monomial_of_ge {n a : Nat} (ha : n ≤ a) (j : Nat) (hj : j < n) :
    icoeff (monomial n a) j = if a - n = j then -1 else 0 := by
  rw [monomial, icoeff_vec, if_pos hj, if_neg (show ¬ a = j by omega)]
  exact if_congr (by omega) rfl rfl

theorem u32_icoeff_ints {n i : Nat} (hi : i < n) (c : List Word) : u32 (icoeff (ints n c) i) = coeff c i := by
  rw [icoeff_ints, if_pos hi, u32_toInt]

/-- R282: the rotation is multiplication by X^a in Z[X]/(X^N + 1). -/
theorem coeff_rot_eq_nprodAt {n a i : Nat} (ha : a < 2 * n) (hi : i < n) (c : List Word) :
    coeff (rot n a c) i = u32 (nprodAt n (monomial n a) (ints n c) i) := by
  rw [coeff_rot n a c hi]
  by_cases hlow : a < n
  · rw [if_pos hlow, nprodAt_single hlow hi (icoeff_monomial_of_lt hlow), one_mul, one_mul]
    split
    · rw [u32_icoeff_ints (by omega)]
    · rw [u32_neg, u32_icoeff_ints (by omega)]
  · rw [if_neg hlow, nprodAt_single (show a - n < n by omega) hi (icoeff_monomial_of_ge (Nat.not_lt.mp hlow)),
      neg_one_mul, neg_one_mul, neg_neg]
    split
    · rw [u32_neg, u32_icoeff_ints (by omega)]
    · rw [u32_icoeff_ints (by omega)]

/-- Settles O16: the formula, the product with the monomial, and the rules of the rotation. -/
theorem rotationIsMonomialProduct : Obligations.RotationIsMonomialProduct := by
  intro n a b src hsrc ha hb
  exact ⟨fun i hi => coeff_rot n a src hi, fun i hi => coeff_rot_eq_nprodAt ha hi src, rot_length n a src,
    rot_zero src hsrc, rot_degree src hsrc, rot_rot src ha hb⟩

/-! ### Ring instructions (R290 to R295) -/

section
variable {s : State} (hN : s.nOk = true)
include hN

theorem execPClr_ok (d : PIdx) : execPClr d s = .next (s.setP d (List.replicate s.ringN 0)).advance := by
  rw [execPClr, needN_ok hN, vec_const, done]

variable {a : PIdx} {x : PReg} (hx : s.pRegs[a] = some x) (hxdeg : x.deg = s.ringN)
include hx hxdeg

/-- R280: what P.ADD, P.SUB and P.MULFFT check. -/
theorem polyOperands_ok {b : PIdx} {y : PReg} (hy : s.pRegs[b] = some y) (hydeg : y.deg = s.ringN)
    (k : PReg → PReg → Result) :
    (needN s fun _ => withP s a fun x => withP s b fun y => tagP s a x fun _ => tagP s b y fun _ => k x y) = k x y := by
  rw [needN_ok hN, withP_some hx, withP_some hy, tagP_ok hxdeg, tagP_ok hydeg]

theorem execPAddmulz_ok {b : SIdx} {q : Word} (hq : s.getS b = some q) {d : PIdx} {z : PReg}
    (hz : s.pRegs[d] = some z) (hzdeg : z.deg = s.ringN) : execPAddmulz d a b s =
      .next (s.setP d (vec s.ringN fun i => coeff z.c i + q * coeff x.c i)).advance := by
  rw [execPAddmulz, needN_ok hN, withP_some hx, withS_some hq, withP_some hz, tagP_ok hxdeg, tagP_ok hzdeg, done]

variable {b : SIdx} {e : Word} (he : s.getS b = some e)
include he

/-- R294, R295: past the operands only the exponent's limit is left to check. -/
theorem polyMono_eq_needBelow (f : Nat → List Word → List Word) (d : PIdx) : polyMono f d a b s =
    needBelow s e (2 * s.ringN) fun _ => done (s.setP d (f e.toNat x.c)) := by
  rw [polyMono, needN_ok hN, withP_some hx, withS_some he, tagP_ok hxdeg]

theorem polyMono_of_lt (hlt : e.toNat < 2 * s.ringN) (f : Nat → List Word → List Word) (d : PIdx) :
    polyMono f d a b s = .next (s.setP d (f e.toNat x.c)).advance := by
  rw [polyMono_eq_needBelow hN hx hxdeg he, needBelow_ok hlt, done]

/-- R294, R295: an exponent of 2N or more is not reduced. -/
theorem polyMono_of_ge (hge : 2 * s.ringN ≤ e.toNat) (f : Nat → List Word → List Word) (d : PIdx) :
    polyMono f d a b s = .next (s.takeFault (.badOperand e)) := by
  rw [polyMono_eq_needBelow hN hx hxdeg he, needBelow_not hge, raise]

end

/-- Settles O15: with the checks passed, each shape's result. -/
theorem polynomialRingResults : Obligations.PolynomialRingResults := by
  refine ⟨fun s d a b q x y z v hN => ⟨execPClr_ok hN d, fun hx hy hxdeg hydeg => ?_,
    fun hx hv hz hxdeg hzdeg => ?_⟩, fun s d a b x e hN hx he hxdeg => ⟨fun hlt => ?_, fun hge => ?_⟩⟩
  · exact ⟨polyOperands_ok hN hx hxdeg hy hydeg _, polyOperands_ok hN hx hxdeg hy hydeg _⟩
  · exact execPAddmulz_ok hN hx hxdeg hv hz hzdeg
  · exact ⟨polyMono_of_lt hN hx hxdeg he hlt _ d, polyMono_of_lt hN hx hxdeg he hlt (mulXaiM1 s.ringN) d⟩
  · exact ⟨polyMono_of_ge hN hx hxdeg he hge _ d, polyMono_of_ge hN hx hxdeg he hge _ d⟩

/-! ### The product through the FFT engine (R296, R323) -/

/-- R323: class M of one product with a narrow integer operand. -/
theorem errBound_narrow {b : Nat} (h : b ≤ 10) (n : Nat) : errBound n (.m b 1) = some 1 := by
  rw [errBound, if_neg (by decide), if_pos h]

/-- R323: class M of one product with a wide integer operand. -/
theorem errBound_wide {b : Nat} (h : 10 < b) (n : Nat) : errBound n (.m b 1) = Config.fftWideErr b n := by
  rw [errBound, if_neg (by decide), if_neg (Nat.not_le.mpr h)]

/-- Settles O17: the errors are the draws numbered from the state's counter. -/
theorem polynomialFftProductResult : Obligations.PolynomialFftProductResult := by
  intro s d a b x y hN hx hy hxdeg hydeg
  refine ⟨fun i => drawErr (errBound s.ringN (.m (sbits (ints s.ringN x.c)) 1)) (s.drawCtr + i),
    fun i => ⟨fun hnarrow => ?_, fun hwide bound hbound => ?_⟩, polyOperands_ok hN hx hxdeg hy hydeg _⟩
  · exact drawErr_le (errBound_narrow hnarrow _)
  · exact drawErr_le ((errBound_wide hwide _).trans hbound)

/-! ### Loads and stores (R297, R298) -/

section
variable {s : State} {a : SIdx} {imm base : Word} (hN : s.nOk = true) (ha : s.getS a = some base)
  (hspan : s.spanOk (base + imm) (4 * s.ringN))
include hN ha hspan

theorem execPLd_of_span (d : PIdx) : execPLd d a imm s =
    .next ((s.afterLoad (base + imm) s.ringN).setP d (loaded s (base + imm) s.ringN)).advance := by
  obtain ⟨hal, hin⟩ := hspan
  rw [execPLd, needN_ok hN, withS_some ha, effAddr, needSpan_ok hal hin, done]

theorem execPSt_of_span {d : PIdx} {x : PReg} (hx : s.pRegs[d] = some x) (hdeg : x.deg = s.ringN)
    (hlen : x.c.length = s.ringN) : execPSt d a imm s = .next (s.store (base + imm).toNat x.c).advance := by
  obtain ⟨hal, hin⟩ := hspan
  rw [execPSt, needN_ok hN, withS_some ha, withP_some hx, tagP_ok hdeg, effAddr, needSpan_ok hal hin,
    vec_coeff_of_length hlen, done]

end

/-- Settles O18: what a checked load reads, and that a run of stores reads back. -/
theorem polynomialLoadStoreResults : Obligations.PolynomialLoadStoreResults := by
  intro s d a imm base hN ha hspan
  refine ⟨?_, fun x hx hdeg hlen => ?_⟩
  · obtain ⟨c, draws, hlen, hwords, hloaded, hafter⟩ := loaded_spec s (base + imm) s.ringN
    refine ⟨c, draws, hlen, hwords, ?_⟩
    rw [← hafter, ← hloaded]
    exact execPLd_of_span hN ha hspan d
  · rw [hdeg] at hlen
    refine ⟨execPSt_of_span hN ha hspan hx hdeg hlen, fun i hi => ?_⟩
    exact memWord_storeWords x.c s.dmem _ i (by rw [hlen]; exact hi)

end Sys2Proof.Machine
end

section
/-! PROOF of O19, O20, O21 and O22: the FFT engine (R320 to R335). An F register holds its polynomial exactly and only
F.INV draws an error, within the bound of the register's class; where that bound is 0 the words come back unchanged. -/

namespace Sys2Proof.Machine

/-! ### The error bound of a class (R323) -/

theorem errBound_int_narrow {b : Nat} (h : b ≤ 20) (n : Nat) : errBound n (.i b) = some 0 := if_pos h

theorem errBound_int_wide {b : Nat} (h : 20 < b) (n : Nat) : errBound n (.i b) = some 1 := if_neg (Nat.not_le.mpr h)

theorem errBound_sum {c : Nat} (h : 2 ≤ c) (b n : Nat) : errBound n (.m b c) = Config.fftErrBound b c n := if_pos h

/-- R17: coefficients in [−2^b, 2^b) have signed width at most b + 1. -/
theorem sbits_ints_le {c : List Word} {b : Nat} (h : ∀ i, -2 ^ b ≤ (coeff c i).toInt ∧ (coeff c i).toInt < 2 ^ b)
    (n : Nat) : sbits (ints n c) ≤ b + 1 := by
  refine sbits_foldl_le _ (Nat.le_add_left 1 b) fun z hz => ?_
  obtain ⟨i, -, rfl⟩ := mem_vec.mp hz
  obtain ⟨hlow, hhigh⟩ := h i
  exact sbits1_le hlow hhigh

/-- R322: where the class allows no error, the inverse transform reads the words back. -/
theorem inverse_ints_of_exact {n : Nat} {c : List Word} {cls : ErrClass} (hc : c.length = n)
    (hcls : errBound n cls = some 0) (k : Nat) : inverse n (ints n c) cls k = c := by
  have hentry (i : Nat) (hi : i < n) : u32 (icoeff (ints n c) i + drawErr (errBound n cls) (k + i)) = coeff c i := by
    rw [hcls, drawErr_zero, add_zero, u32_icoeff_ints hi]
  rw [inverse, vec_congr hentry, vec_coeff_of_length hc]

/-! ### Monomials (R335) -/

theorem monomial_of_lt {n e : Nat} (he : e < n) : monomial n e = vec n fun i => if i = e then 1 else 0 :=
  vec_congr fun i _ => by rw [if_neg (show ¬ e = i + n by omega)]; exact if_congr eq_comm rfl rfl

theorem monomial_of_ge {n e : Nat} (he : n ≤ e) : monomial n e = vec n fun i => if i = e - n then -1 else 0 :=
  vec_congr fun i hi => by rw [if_neg (show ¬ e = i by omega)]; exact if_congr (by omega) rfl rfl

/-! ### The class of a sum of products (R334) -/

/-- R334: the classes of a product's operands are I(b) and T, in either order. -/
def IntAndTorus (x y : ErrClass) (b : Nat) : Prop := (x = .i b ∧ y = .t) ∨ (x = .t ∧ y = .i b)

section
variable {x y acc : ErrClass} {b : Nat} (h : IntAndTorus x y b)
include h

theorem mulAddClass_first : mulAddClass .z x y = .m b 1 := by
  obtain ⟨rfl, rfl⟩ | ⟨rfl, rfl⟩ := h <;> rfl

theorem mulAddClass_next (b0 c0 : Nat) : mulAddClass (.m b0 c0) x y = .m (max b0 b) (c0 + 1) := by
  obtain ⟨rfl, rfl⟩ | ⟨rfl, rfl⟩ := h <;> rfl

theorem mulAddClass_of_other (hz : acc ≠ .z) (hm : ∀ b0 c0, acc ≠ .m b0 c0) : mulAddClass acc x y = .g := by
  cases acc with
  | z => exact absurd rfl hz
  | m b0 c0 => exact absurd rfl (hm b0 c0)
  | i | t | g => obtain ⟨rfl, rfl⟩ | ⟨rfl, rfl⟩ := h <;> rfl

end

theorem mulAddClass_of_not_product {x y : ErrClass} (h : ∀ b, ¬ IntAndTorus x y b) (acc : ErrClass) :
    mulAddClass acc x y = .g := by
  unfold mulAddClass
  split
  case h_1 b | h_3 _ _ b => exact absurd (.inl ⟨rfl, rfl⟩) (h b)
  case h_2 b | h_4 _ _ b => exact absurd (.inr ⟨rfl, rfl⟩) (h b)
  case h_5 => rfl

/-! ### The instructions (R330 to R335) -/

section
variable {s : State} (hN : s.nOk = true)
include hN

theorem execFClr_ok (d : FIdx) : execFClr d s = .next (s.setF d (List.replicate s.ringN 0) .z).advance := by
  rw [execFClr, needN_ok hN, vec_const, done]

theorem forward_ok {a : PIdx} {x : PReg} (hx : s.pRegs[a] = some x) (hdeg : x.deg = s.ringN)
    (cls : List Int → ErrClass) (d : FIdx) :
    forward cls d a s = .next (s.setF d (ints s.ringN x.c) (cls (ints s.ringN x.c))).advance := by
  rw [forward, needN_ok hN, withP_some hx, tagP_ok hdeg, done]

theorem execFInv_ok {a : FIdx} {x : FReg} (hx : s.fRegs[a] = some x) (hdeg : x.deg = s.ringN) (d : PIdx) :
    execFInv d a s = .next ((s.setP d (inverse s.ringN x.v x.cls s.drawCtr)).bump s.ringN).advance := by
  rw [execFInv, needN_ok hN, withF_some hx, tagF_ok hdeg, done]

/-- R333: F.INV of the F register that the instruction before wrote. -/
theorem execFInv_setF_advance (v : List Int) (cls : ErrClass) (f : FIdx) (d : PIdx) :
    execFInv d f (s.setF f v cls).advance = .next (((s.setF f v cls).advance.setP d
      (inverse s.ringN v cls s.drawCtr)).bump s.ringN).advance := by
  have hread : (s.setF f v cls).advance.fRegs[f] = some ⟨s.ringN, v, cls⟩ := by
    rw [State.advance_fRegs, State.setF_fRegs, vector_get_set, if_pos rfl]
  exact execFInv_ok (s := (s.setF f v cls).advance) hN hread rfl d

theorem execFMuladd_ok {a b d : FIdx} {x y acc : FReg} (hx : s.fRegs[a] = some x) (hy : s.fRegs[b] = some y)
    (hacc : s.fRegs[d] = some acc) (hxdeg : x.deg = s.ringN) (hydeg : y.deg = s.ringN) (haccdeg : acc.deg = s.ringN) :
    execFMuladd d a b s = .next (s.setF d (vec s.ringN fun i => icoeff acc.v i + nprodAt s.ringN x.v y.v i)
      (mulAddClass acc.cls x.cls y.cls)).advance := by
  rw [execFMuladd, needN_ok hN, withF_some hx, withF_some hy, withF_some hacc, tagF_ok hxdeg, tagF_ok hydeg,
    tagF_ok haccdeg, done]

variable {b : SIdx} {e : Word} (he : s.getS b = some e)
include he

theorem execFMono_of_lt (hlt : e.toNat < 2 * s.ringN) (d : FIdx) :
    execFMono d b s = .next (s.setF d (monomial s.ringN e.toNat) (.i 2)).advance := by
  rw [execFMono, needN_ok hN, withS_some he, needBelow_ok hlt, done]

theorem execFMono_of_ge (hge : 2 * s.ringN ≤ e.toNat) (d : FIdx) :
    execFMono d b s = .next (s.takeFault (.badOperand e)) := by
  rw [execFMono, needN_ok hN, withS_some he, needBelow_not hge, raise]

end

/-- Settles O22: F.FWDI leaves an F register of class I(b) with b ≤ 20, whose inverse transform is exact. -/
theorem forwardThenInverseIsExact : Obligations.ForwardThenInverseIsExact := by
  intro s t f a d x hN hx hdeg hlen hrange hfwd
  have hstate := Host.Outcome.next.inj ((forward_ok hN hx hdeg (fun v => .i (sbits v)) f).symm.trans hfwd)
  subst hstate
  have hclass : errBound s.ringN (.i (sbits (ints s.ringN x.c))) = some 0 :=
    errBound_int_narrow (sbits_ints_le hrange s.ringN) _
  refine (execFInv_setF_advance hN _ _ f d).trans ?_
  rw [inverse_ints_of_exact hlen hclass]
  rfl

/-- Settles O19: the table's rows, and the errors are the draws numbered from the state's counter. -/
theorem inverseTransformResult : Obligations.InverseTransformResult := by
  refine ⟨fun n => ⟨rfl, fun b => ⟨fun h => errBound_int_narrow h n, fun h => errBound_int_wide h n⟩, rfl,
    fun b => ⟨fun h => errBound_narrow h n, fun h => errBound_wide h n⟩, fun b c h => errBound_sum h b n, rfl⟩,
    fun s d a x hN hx hdeg => ?_⟩
  exact ⟨fun i => drawErr (errBound s.ringN x.cls) (s.drawCtr + i), fun _ _ hbound => drawErr_le hbound,
    execFInv_ok hN hx hdeg d⟩

/-- Settles O20: with the checks passed, each forward instruction's values and class. -/
theorem fourierForwardResults : Obligations.FourierForwardResults := by
  intro s d a b x e hN
  refine ⟨execFClr_ok hN d, fun hx hdeg => ⟨forward_ok hN hx hdeg (fun v => .i (sbits v)) d,
    forward_ok hN hx hdeg (fun _ => .t) d⟩,
    fun he => ⟨fun hlt => ?_, fun hge hlt => ?_, fun hge => execFMono_of_ge hN he hge d⟩⟩
  · rw [← monomial_of_lt hlt]
    exact execFMono_of_lt hN he (by omega) d
  · rw [← monomial_of_ge hge]
    exact execFMono_of_lt hN he hlt d

/-- Settles O21: the sum, and the class rule case by case. -/
theorem fourierMulAddResult : Obligations.FourierMulAddResult := by
  intro s d a b x y acc hN hx hy hacc hxdeg hydeg haccdeg
  refine ⟨execFMuladd_ok hN hx hy hacc hxdeg hydeg haccdeg, fun b1 hpair => ⟨fun hz => ?_, fun b0 c0 hm => ?_,
    mulAddClass_of_other hpair⟩, fun hnot => mulAddClass_of_not_product hnot acc.cls⟩
  · rw [hz, mulAddClass_first hpair]
  · rw [hm, mulAddClass_next hpair]

end Sys2Proof.Machine
end

section
/-! PROOF of O23 to O30: the LWE instructions (R350 to R372, R411). An instruction and its X row differ only in the key
and the dimension they select (R350), so each result is proved once for either selection. A phase is b minus an inner
product, which is linear in the sample; the words of a transfer are those of the image, in order. -/

open scoped BigOperators

namespace Sys2Proof.Machine

/-! ### The selected key (R350, R393) -/

theorem selKey_lwe {s : State} {key : KeyL} (hkey : s.keyL = some key) (hdim : key.dim = s.lweN) :
    selKey s .lwe = some (key.s, true) := by
  simp [selKey, hkey, hdim]

theorem selKey_ext {s : State} {key : KeyR} (hkey : s.keyR = some key) (hdeg : key.deg = s.ringN)
    (hrank : key.k = s.rankK) : selKey s .ext = some (extractedKey key, true) := by
  simp [selKey, hkey, hdeg, hrank]

/-! ### Encryption, phase and decryption (R360 to R362) -/

section
variable {s : State} {sel : KeySel} {bits : List Bool} (hsel : selOk s sel) (hkey : selKey s sel = some (bits, true))
include hsel hkey

/-- R360: the uniform words and the noise are the draws numbered from the state's counter. -/
theorem lweEnc_ok {a : SIdx} {m : Word} (ha : s.getS a = some m) (d : LIdx) : lweEnc sel d a s =
    .next ((s.setL d (lweEncrypt (dimOf s sel) bits (uniformWords (dimOf s sel) s.drawCtr) m
      (drawGauss s.alpha (s.drawCtr + dimOf s sel)) s.alpha)).bump (dimOf s sel + 1)).advance := by
  rw [lweEnc, needSel_ok hsel, withS_some ha, withKey_some hkey, tagKey_ok, done]

/-- R360, R16: the uniform words and the noise are free, the noise within its bound. -/
theorem lweEnc_spec {a : SIdx} {m : Word} (ha : s.getS a = some m) (d : LIdx) :
    ∃ (u : Nat → Word) (e : Int), (∀ bound, Config.gaussBound s.alpha = some bound → e.natAbs ≤ bound) ∧
      lweEnc sel d a s = .next ((s.setL d (lweEncrypt (dimOf s sel) bits (vec (dimOf s sel) u) m e s.alpha)).bump
        (dimOf s sel + 1)).advance :=
  ⟨fun i => Config.freeU32 (s.drawCtr + i), drawGauss s.alpha (s.drawCtr + dimOf s sel),
    fun _ hbound => drawGauss_le hbound, lweEnc_ok hsel hkey ha d⟩

variable {a : LIdx} {x : LReg} (hx : s.lRegs[a] = some x) (hdim : x.dim = dimOf s sel)
include hx hdim

theorem lwePhase_ok (d : SIdx) : lwePhase sel d a s = .next (s.setS d (lwePhaseOf x bits)).advance := by
  rw [lwePhase, needSel_ok hsel, withL_some hx, withKey_some hkey, tagL_ok hdim, tagKey_ok, done]

/-- R361: past the operands only the modulus is left to check. -/
theorem lweDec_eq_needModulus {b : SIdx} {m : Word} (hb : s.getS b = some m) (d : SIdx) : lweDec sel d a b s =
    needModulus s m fun _ => done (s.setS d (approx (lwePhaseOf x bits) m.toNat)) := by
  rw [lweDec, needSel_ok hsel, withL_some hx, withS_some hb, withKey_some hkey, tagL_ok hdim, tagKey_ok]

theorem lweDec_ok {b : SIdx} {m : Word} (hb : s.getS b = some m) (hm : m ≠ 0) (d : SIdx) :
    lweDec sel d a b s = .next (s.setS d (approx (lwePhaseOf x bits) m.toNat)).advance := by
  rw [lweDec_eq_needModulus hsel hkey hx hdim hb, needModulus_ok hm, done]

theorem lweDec_zero {b : SIdx} (hb : s.getS b = some 0) (d : SIdx) :
    lweDec sel d a b s = .next (s.takeFault ⟨.badOperand, 0⟩) := by
  rw [lweDec_eq_needModulus hsel hkey hx hdim hb, needModulus_zero, raise, Exc.badOperand]

theorem lweDecrypt_spec (d b : SIdx) (m : Word) :
    lwePhase sel d a s = .next (s.setS d (lwePhaseOf x bits)).advance ∧
    (s.getS b = some m → m ≠ 0 →
      lweDec sel d a b s = .next (s.setS d (approx (lwePhaseOf x bits) m.toNat)).advance) ∧
    (s.getS b = some 0 → lweDec sel d a b s = .next (s.takeFault ⟨.badOperand, 0⟩)) :=
  ⟨lwePhase_ok hsel hkey hx hdim d, fun hb hm => lweDec_ok hsel hkey hx hdim hb hm d,
    fun hb => lweDec_zero hsel hkey hx hdim hb d⟩

end

/-- Settles O23: either selection is the same encryption. -/
theorem lweEncryptResults : Obligations.LweEncryptResults := by
  intro s d a m ha
  exact ⟨fun key hlwe hkey hdim => lweEnc_spec (sel := .lwe) hlwe (selKey_lwe hkey hdim) ha d,
    fun key hring hkey hdeg hrank => lweEnc_spec (sel := .ext) hring (selKey_ext hkey hdeg hrank) ha d⟩

/-- Settles O25: either selection is the same phase and the same rounding of it. -/
theorem lweDecryptResults : Obligations.LweDecryptResults := by
  intro s d a b x m hx
  exact ⟨fun key hlwe hkey hdim hxdim =>
      lweDecrypt_spec (sel := .lwe) hlwe (selKey_lwe hkey hdim) hx hxdim d b m,
    fun key hring hkey hdeg hrank hxdim =>
      lweDecrypt_spec (sel := .ext) hring (selKey_ext hkey hdeg hrank) hx hxdim d b m⟩

/-- R360, R362: the phase takes off the inner product that the encryption put on. -/
theorem lwePhaseOf_lweEncrypt (d : Nat) (key : List Bool) (a : List Word) (m : Word) (e : Int) (alpha : F64) :
    lwePhaseOf (lweEncrypt d key a m e alpha) key = m + u32 e := by
  simp only [lwePhaseOf, lweEncrypt]
  rw [add_assoc, add_sub_cancel_left]

theorem State.setL_lRegs_same (s : State) (d : LIdx) (x : LReg) : (s.setL d x).lRegs[d] = some x := by
  rw [State.setL_lRegs, vector_get_set, if_pos rfl]

/-- Settles O24: L.ENC leaves what L.PHASE checks as it was, and writes the sample that L.PHASE then reads. -/
theorem encryptThenPhase : Obligations.EncryptThenPhase := by
  intro s t d a r m key hlwe ha hkey hdim henc
  have hbits : selKey s .lwe = some (key.s, true) := selKey_lwe hkey hdim
  obtain ⟨u, e, hbound, hresult⟩ := lweEnc_spec (sel := .lwe) hlwe hbits ha d
  have hstate := Host.Outcome.next.inj (hresult.symm.trans henc)
  subst hstate
  refine ⟨e, hbound, ?_⟩
  have hread := State.setL_lRegs_same s d (lweEncrypt s.lweN key.s (vec s.lweN u) m e s.alpha)
  rw [← lwePhaseOf_lweEncrypt s.lweN key.s (vec s.lweN u) m e s.alpha]
  exact lwePhase_ok (s := ((s.setL d _).bump (s.lweN + 1)).advance) (sel := .lwe) hlwe hbits hread rfl r

/-! ### Linear operations (R363 to R369) -/

section
variable {s : State}

theorem lweTriv_ok {sel : KeySel} (hsel : selOk s sel) {b : SIdx} {p : Word} (hb : s.getS b = some p) (d : LIdx) :
    lweTriv sel d b s =
      .next (s.setL d ⟨dimOf s sel, List.replicate (dimOf s sel) 0, p, 0⟩).advance := by
  rw [lweTriv, needSel_ok hsel, withS_some hb, lweTrivial, vec_const, done, f64Zero]

variable {a d : LIdx} {x acc : LReg} (hx : s.lRegs[a] = some x) (hacc : s.lRegs[d] = some acc) (hdim : acc.dim = x.dim)
include hx hacc hdim

theorem lweAcc_ok (f : LReg → LReg → LReg) : lweAcc f d a s = .next (s.setL d (f acc x)).advance := by
  rw [lweAcc, withL_some hx, withL_some hacc, tagL_ok hdim, done]

theorem lweAccMul_ok {b : SIdx} {p : Word} (hb : s.getS b = some p) (f : Word → LReg → LReg → LReg) :
    lweAccMul f d a b s = .next (s.setL d (f p acc x)).advance := by
  rw [lweAccMul, withL_some hx, withS_some hb, withL_some hacc, tagL_ok hdim, done]

end

/-- Settles O26: with the checks passed, each instruction writes the sample of its rule. -/
theorem lweLinearResults : Obligations.LweLinearResults := by
  intro s d a b x acc p
  refine ⟨fun hb hlwe => lweTriv_ok (sel := .lwe) hlwe hb d, fun hb hring => lweTriv_ok (sel := .ext) hring hb d,
    fun hx => ⟨withL_some hx _, withL_some hx _⟩, fun hx hacc hdim => ?_⟩
  exact ⟨lweAcc_ok hx hacc hdim lweAdd, lweAcc_ok hx hacc hdim lweSub,
    fun hb => ⟨lweAccMul_ok hx hacc hdim hb lweAddMul, lweAccMul_ok hx hacc hdim hb lweSubMul⟩⟩

/-! ### Phases are linear (R352, R362) -/

theorem dot_add_mul (n : Nat) (p : Word) (x y : List Word) (key : List Bool) :
    dot n (vec n fun i => coeff x i + p * coeff y i) key = dot n x key + p * dot n y key := by
  rw [dot_vec, dot_eq n x, dot_eq n y, Finset.mul_sum, ← Finset.sum_add_distrib]
  exact Finset.sum_congr rfl fun i _ => by ring

theorem dot_neg (n : Nat) (x : List Word) (key : List Bool) :
    dot n (vec n fun i => -coeff x i) key = -dot n x key := by
  rw [dot_vec, dot_eq n x, ← Finset.sum_neg_distrib]
  exact Finset.sum_congr rfl fun i _ => neg_mul ..

theorem dot_zero (n : Nat) (key : List Bool) : dot n (vec n fun _ => 0) key = 0 := by
  rw [dot_vec]
  exact Finset.sum_eq_zero fun i _ => zero_mul _

/-- R364 to R367: each combination adds a multiple of the source, and so does its phase. -/
theorem lwePhaseOf_lweCombine {f : Word → Word → Word} {q : Word} (hf : ∀ u v, f u v = u + q * v) {acc x : LReg}
    (hdim : acc.dim = x.dim) (var : F64) (key : List Bool) :
    lwePhaseOf (lweCombine f var acc x) key = lwePhaseOf acc key + q * lwePhaseOf x key := by
  simp only [lwePhaseOf, lweCombine, hf, dot_add_mul, hdim]
  ring

/-- Settles O27: the multiples are 1, −1, p and −p. -/
theorem lwePhaseIsLinear : Obligations.LwePhaseIsLinear := by
  intro key acc x p hdim
  refine ⟨?_, ?_, lwePhaseOf_lweCombine (fun _ _ => rfl) hdim _ key, ?_, ?_, fun d mu => ?_⟩
  · rw [lweAdd, lwePhaseOf_lweCombine (q := 1) (fun u v => by ring) hdim, one_mul]
  · rw [lweSub, lwePhaseOf_lweCombine (q := -1) (fun u v => by ring) hdim]
    ring
  · rw [lweSubMul, lwePhaseOf_lweCombine (q := -p) (fun u v => by ring) hdim]
    ring
  · simp only [lwePhaseOf, lweNeg, dot_neg]
    ring
  · simp only [lwePhaseOf, lweTrivial, dot_zero, sub_zero]

/-! ### The sample image (R111) -/

theorem lweToWords_count (x : LReg) : x.toWords.length = x.dim + 3 := by
  have hbytes := lweToWords_length x
  unfold lStride at hbytes
  omega

/-- R111: the words of an image, in order. -/
theorem coeff_lweToWords (x : LReg) : (∀ i, i < x.dim → coeff x.toWords i = coeff x.a i) ∧
    coeff x.toWords x.dim = x.b ∧ coeff x.toWords (x.dim + 1) = x.var.extractLsb' 0 32 ∧
    coeff x.toWords (x.dim + 2) = x.var.extractLsb' 32 32 := by
  simp only [coeff, LReg.toWords, List.getD_eq_getElem?_getD]
  refine ⟨fun i hi => ?_, ?_, ?_, ?_⟩
  · rw [List.getElem?_append_left (by simpa using hi), vec_getElem?, if_pos hi]
    rfl
  all_goals rw [List.getElem?_append_right (by simp)]; simp

/-- R111: an image spells its sample. -/
theorem lweOfWords_toWords {x : LReg} (hlen : x.a.length = x.dim) : LReg.ofWords x.dim x.toWords = x := by
  obtain ⟨ha, hb, hlow, hhigh⟩ := coeff_lweToWords x
  rw [LReg.ofWords, vec_congr ha, vec_coeff_of_length hlen, hb, hlow, hhigh, f64_halves]

/-! ### Loads and stores (R370, R371) -/

section
variable {s : State} {a : SIdx} {imm base : Word} (ha : s.getS a = some base)
include ha

theorem lweLoad_of_span {sel : KeySel} (hsel : selOk s sel) (hspan : s.spanOk (base + imm) (lStride (dimOf s sel)))
    (d : LIdx) : lweLoad sel d a imm s = .next ((s.afterLoad (base + imm) (dimOf s sel + 3)).setL d
      (LReg.ofWords (dimOf s sel) (loaded s (base + imm) (dimOf s sel + 3)))).advance := by
  obtain ⟨hal, hin⟩ := hspan
  rw [lweLoad, needSel_ok hsel, withS_some ha, effAddr, needSpan_ok hal hin, done]

theorem lweLoad_spec {sel : KeySel} (hsel : selOk s sel) (hspan : s.spanOk (base + imm) (lStride (dimOf s sel)))
    (d : LIdx) : ∃ (w : List Word) (draws : Nat), w.length = dimOf s sel + 3 ∧
      (∀ i, i < dimOf s sel + 3 → ∀ v, memWord s.dmem ((base + imm).toNat + 4 * i) = some v → coeff w i = v) ∧
      lweLoad sel d a imm s = .next ((s.bump draws).setL d (LReg.ofWords (dimOf s sel) w)).advance := by
  obtain ⟨w, draws, hlen, hwords, hloaded, hafter⟩ := loaded_spec s (base + imm) (dimOf s sel + 3)
  refine ⟨w, draws, hlen, hwords, ?_⟩
  rw [← hafter, ← hloaded]
  exact lweLoad_of_span ha hsel hspan d

theorem execLSt_of_span {d : LIdx} {x : LReg} (hx : s.lRegs[d] = some x)
    (hspan : s.spanOk (base + imm) (lStride x.dim)) :
    execLSt d a imm s = .next (s.store (base + imm).toNat x.toWords).advance := by
  obtain ⟨hal, hin⟩ := hspan
  rw [execLSt, withS_some ha, withL_some hx, effAddr, needSpan_ok hal hin, done]

end

/-- Settles O28: either selection is the same load, and L.ST stores the image of its register. -/
theorem lweLoadStoreResults : Obligations.LweLoadStoreResults := by
  intro s d a imm base ha
  exact ⟨fun hlwe hspan => lweLoad_spec ha (sel := .lwe) hlwe hspan d,
    fun hring hspan => lweLoad_spec ha (sel := .ext) hring hspan d, fun x hx hspan => execLSt_of_span ha hx hspan⟩

/-- R104: a run that was just stored is read back without a draw. -/
theorem loaded_store (s : State) (ea : Word) {ws : List Word} {cnt : Nat} (hcnt : ws.length = cnt) :
    loaded (s.store ea.toNat ws).advance ea cnt = ws ∧
      (s.store ea.toNat ws).advance.afterLoad ea cnt = (s.store ea.toNat ws).advance := by
  subst hcnt
  have hread : loadWords (s.store ea.toNat ws).advance.dmem (s.store ea.toNat ws).advance.drawCtr ea.toNat ws.length
      = (ws, s.drawCtr) := loadWords_storeWords s.dmem s.drawCtr ea.toNat ws
  rw [loaded, State.afterLoad, hread]
  exact ⟨rfl, rfl⟩

/-- Settles O29: L.ST leaves what L.LD checks as it was, the words read are the image stored, and the image spells the
sample. -/
theorem lweStoreThenLoad : Obligations.LweStoreThenLoad := by
  intro s t d e a imm base x hlwe ha hx hdim hlen hspan hst
  have hstride : s.spanOk (base + imm) (lStride x.dim) := by rw [hdim]; exact hspan
  have hstate := Host.Outcome.next.inj ((execLSt_of_span ha hx hstride).symm.trans hst)
  subst hstate
  have hload := lweLoad_of_span (s := (s.store (base + imm).toNat x.toWords).advance) (sel := .lwe) ha hlwe hspan e
  have hdim' : x.dim = dimOf (s.store (base + imm).toNat x.toWords).advance .lwe := hdim
  obtain ⟨hloaded, hafter⟩ := loaded_store s (base + imm) (lweToWords_count x)
  rw [← hdim', hloaded, hafter, lweOfWords_toWords hlen] at hload
  exact hload

/-! ### Key images (R115, R372, R411) -/

/-- R115: the bits of a run of written key words. -/
theorem keyBits_vec {n at0 cnt : Nat} (h : at0 + n ≤ cnt) (w : Nat → Word) :
    keyBits n (vec cnt w) at0 = vec n fun i => w (at0 + i) == 1 :=
  vec_congr fun i hi => by rw [coeff_vec, if_pos (show at0 + i < cnt by omega)]

theorem needKeyWords_bad {ws : List Word} {v : Word} (h : badKeyWord ws = some v) (t : State) (k : Unit → Result) :
    needKeyWords t ws k = raise t (.badOperand v) := by
  simp only [needKeyWords, h]

/-- What KEY.LDL and KEY.LDR do with an image of `cnt` key words after the check of their parameters: `k` goes on with
the state and the words that were read. -/
def withKeyImage (s : State) (a : SIdx) (imm : Word) (cnt : Nat) (k : State → List Word → Result) : Result :=
  withS s a fun base =>
  needSpan s (effAddr base imm) (4 * cnt) fun _ =>
  needKeyWords (s.afterLoad (effAddr base imm) cnt) (loaded s (effAddr base imm) cnt) fun _ =>
  k (s.afterLoad (effAddr base imm) cnt) (loaded s (effAddr base imm) cnt)

theorem execKeyLdl_of_lweOk {s : State} (h : s.lweOk = true) (a : SIdx) (imm : Word) : execKeyLdl a imm s =
    withKeyImage s a imm s.lweN fun t ws => done (t.setKeyL (keyBits s.lweN ws 0)) := needLwe_ok h _

theorem execKeyLdr_of_ringOk {s : State} (h : s.ringOk = true) (a : SIdx) (imm : Word) : execKeyLdr a imm s =
    withKeyImage s a imm s.extN fun t ws =>
      done (t.setKeyR (vec s.rankK fun m => keyBits s.ringN ws (m * s.ringN))) := needRing_ok h _

section
variable {s : State} {a : SIdx} {imm base : Word} {cnt : Nat} {w : Nat → Word} (ha : s.getS a = some base)
  (hspan : s.spanOk (base + imm) (4 * cnt))
  (hw : ∀ i, i < cnt → memWord s.dmem ((base + imm).toNat + 4 * i) = some (w i))
include ha hspan hw

/-- R107: with every word written, nothing is drawn and only the words' values are left to check. -/
theorem withKeyImage_written (k : State → List Word → Result) :
    withKeyImage s a imm cnt k = needKeyWords s (vec cnt w) fun _ => k s (vec cnt w) := by
  obtain ⟨hal, hin⟩ := hspan
  obtain ⟨hloaded, hafter⟩ := loaded_written s (base + imm) cnt w hw
  rw [withKeyImage, withS_some ha, effAddr, needSpan_ok hal hin, hloaded, hafter]

theorem withKeyImage_ok (hbits : ∀ i, i < cnt → w i = 0 ∨ w i = 1) (k : State → List Word → Result) :
    withKeyImage s a imm cnt k = k s (vec cnt w) := by
  rw [withKeyImage_written ha hspan hw]
  refine needKeyWords_ok (fun x hx => ?_) s _
  obtain ⟨i, hi, rfl⟩ := mem_vec.mp hx
  exact hbits i hi

/-- R115: the first word that is neither 0 nor 1 is the one reported. -/
theorem withKeyImage_bad {i : Nat} (hi : i < cnt) (h0 : w i ≠ 0) (h1 : w i ≠ 1)
    (hbits : ∀ j, j < i → w j = 0 ∨ w j = 1) (k : State → List Word → Result) :
    withKeyImage s a imm cnt k = .next (s.takeFault (.badOperand (w i))) := by
  rw [withKeyImage_written ha hspan hw, needKeyWords_bad (badKeyWord_first cnt w hi h0 h1 hbits), raise]

end

/-- R411: polynomial `m` of the key is the run of words that begins at word m·N. -/
theorem keyPolys_vec (n k : Nat) (w : Nat → Word) :
    (vec k fun m => keyBits n (vec (k * n) w) (m * n)) = vec k fun m => vec n fun j => w (m * n + j) == 1 := by
  refine vec_congr fun m hm => keyBits_vec ?_ w
  calc m * n + n = (m + 1) * n := (Nat.succ_mul m n).symm
    _ ≤ k * n := Nat.mul_le_mul_right n hm

/-- Settles O30: the two instructions make the same checks of the image, and read their bits off it. -/
theorem keyLoadResults : Obligations.KeyLoadResults := by
  intro s a imm base w ha
  refine ⟨fun hlwe hspan hw => ?_, fun hring hspan hw => ?_⟩
  · have hexec := execKeyLdl_of_lweOk hlwe a imm
    refine ⟨fun hbits => ?_, fun i hi h0 h1 hbits => hexec.trans (withKeyImage_bad ha hspan hw hi h0 h1 hbits _)⟩
    have hkey : keyBits s.lweN (vec s.lweN w) 0 = vec s.lweN fun i => w i == 1 := by
      simpa only [Nat.zero_add] using keyBits_vec (Nat.zero_add s.lweN).le w
    rw [← hkey]
    exact hexec.trans (withKeyImage_ok ha hspan hw hbits _)
  · have hexec := execKeyLdr_of_ringOk hring a imm
    refine ⟨fun hbits => ?_, fun i hi h0 h1 hbits => hexec.trans (withKeyImage_bad ha hspan hw hi h0 h1 hbits _)⟩
    rw [← keyPolys_vec]
    exact hexec.trans (withKeyImage_ok ha hspan hw hbits _)

end Sys2Proof.Machine
end

section
/-! PROOF of O31 to O36: the RLWE instructions (R391 to R410). A product with an integer polynomial is the sum of the
rotations of the other factor, each times its coefficient; extraction reads one coefficient of those rotations, so that
the inner product with the extracted key is the key sum. Component m of a sample fills the places m·N to m·N + N − 1 of
an extracted sample, of the extracted key and of an image. -/

open scoped BigOperators

namespace Sys2Proof.Machine

/-! ### Blocks of N places (R113, R393, R408) -/

section
variable {n k : Nat}

theorem mul_add_lt_mul {m j : Nat} (hm : m < k) (hj : j < n) : m * n + j < k * n :=
  calc m * n + j < (m + 1) * n := by rw [Nat.succ_mul]; exact Nat.add_lt_add_left hj _
    _ ≤ k * n := Nat.mul_le_mul_right n hm

theorem mul_add_div_block (m : Nat) {j : Nat} (hj : j < n) : (m * n + j) / n = m := by
  rw [Nat.mul_comm, Nat.mul_add_div (Nat.zero_lt_of_lt hj), Nat.div_eq_of_lt hj, Nat.add_zero]

theorem mul_add_mod_block (m : Nat) {j : Nat} (hj : j < n) : (m * n + j) % n = j := by
  rw [Nat.mul_add_mod_self_right, Nat.mod_eq_of_lt hj]

/-- Entry `j` of block `m` of a vector given block by block. -/
theorem coeff_vec_block (f : Nat → Nat → Word) {m j : Nat} (hm : m < k) (hj : j < n) :
    coeff (vec (k * n) fun q => f (q / n) (q % n)) (m * n + j) = f m j := by
  rw [coeff_vec, if_pos (mul_add_lt_mul hm hj), mul_add_div_block m hj, mul_add_mod_block m hj]

/-- A sum over all places, block by block. -/
theorem sum_range_blocks (n k : Nat) (f : Nat → Nat → Word) :
    ∑ q ∈ Finset.range (k * n), f (q / n) (q % n) = ∑ m ∈ Finset.range k, ∑ j ∈ Finset.range n, f m j := by
  induction k with
  | zero => simp
  | succ k ih =>
    rw [Nat.succ_mul, Finset.sum_range_add, ih, Finset.sum_range_succ]
    congr 1
    refine Finset.sum_congr rfl fun j hj => ?_
    have hj : j < n := Finset.mem_range.mp hj
    rw [mul_add_div_block k hj, mul_add_mod_block k hj]

end

/-! ### Products as sums of rotations (R17, R282) -/

/-- R282: a rotation by less than N. -/
theorem coeff_rot_of_lt {n e i : Nat} (he : e < n) (hi : i < n) (c : List Word) :
    coeff (rot n e c) i = if e ≤ i then coeff c (i - e) else -coeff c (i + n - e) := by
  rw [coeff_rot n e c hi, if_pos he]

/-- R17: both sums of the product run the same in either direction. -/
theorem nprodAt_comm {n i : Nat} (x y : List Int) : nprodAt n x y i = nprodAt n y x i := by
  have hlow : ∑ j ∈ Finset.range (i + 1), icoeff x j * icoeff y (i - j) =
      ∑ j ∈ Finset.range (i + 1), icoeff y j * icoeff x (i - j) := by
    rw [← Finset.sum_flip fun j => icoeff x j * icoeff y (i - j)]
    refine Finset.sum_congr rfl fun j hj => ?_
    rw [Nat.sub_sub_self (Nat.lt_succ_iff.mp (Finset.mem_range.mp hj)), mul_comm]
  have hhigh : ∑ j ∈ Finset.Ico (i + 1) n, icoeff x j * icoeff y (i + n - j) =
      ∑ j ∈ Finset.Ico (i + 1) n, icoeff y j * icoeff x (i + n - j) := by
    have hreflect := Finset.sum_Ico_reflect (fun j => icoeff x j * icoeff y (i + n - j)) (i + 1)
      (show n ≤ i + n + 1 by omega)
    rw [show i + n + 1 - n = i + 1 by omega, show i + n + 1 - (i + 1) = n by omega] at hreflect
    rw [← hreflect]
    refine Finset.sum_congr rfl fun j hj => ?_
    have hj : j < n := (Finset.mem_Ico.mp hj).2
    rw [Nat.sub_sub_self (show j ≤ i + n by omega), mul_comm]
  rw [nprodAt, nprodAt, hlow, hhigh]

/-- R17, R282: each coefficient of the one factor multiplies a rotation of the other. -/
theorem u32_nprodAt_ints {n i : Nat} (hi : i < n) (x : List Int) (c : List Word) :
    u32 (nprodAt n x (ints n c) i) = ∑ j ∈ Finset.range n, u32 (icoeff x j) * coeff (rot n j c) i := by
  rw [nprodAt, u32_sub, u32_sum, u32_sum, ← Finset.sum_range_add_sum_Ico _ (show i + 1 ≤ n from hi), sub_eq_add_neg,
    ← Finset.sum_neg_distrib]
  congr 1
  · refine Finset.sum_congr rfl fun j hj => ?_
    have hji : j ≤ i := Nat.lt_succ_iff.mp (Finset.mem_range.mp hj)
    rw [coeff_rot_of_lt (by omega) hi, if_pos hji, u32_mul, u32_icoeff_ints (by omega)]
  · refine Finset.sum_congr rfl fun j hj => ?_
    obtain ⟨hij, hjn⟩ := Finset.mem_Ico.mp hj
    rw [coeff_rot_of_lt hjn hi, if_neg (Nat.not_le.mpr hij), u32_mul, u32_icoeff_ints (by omega), mul_neg]

/-! ### The key sum (R391) -/

/-- R391: the key sum, as the rotations of the components by the places of the key's bits. -/
theorem ksumAt_eq {n i : Nat} (hi : i < n) (k : Nat) (key : List (List Bool)) (x : Rlwe) :
    ksumAt n k key x i = ∑ m ∈ Finset.range k, ∑ j ∈ Finset.range n,
      coeff (rot n j (x.get m)) i * u32 (bitAt (key.getD m []) j) := by
  rw [ksumAt, u32_sum]
  refine Finset.sum_congr rfl fun m _ => ?_
  rw [nprodAt_comm, u32_nprodAt_ints hi]
  refine Finset.sum_congr rfl fun j hj => ?_
  rw [keyInts, icoeff_vec, if_pos (Finset.mem_range.mp hj), mul_comm]

/-! ### Extraction (R393, R408) -/

/-- R408: place `m·N + j` of the extraction of coefficient `i` is that coefficient of component `m` rotated by `j`. -/
theorem rlweExtract_a {n i : Nat} (hi : i < n) (k : Nat) (x : Rlwe) :
    (rlweExtract n k i x).a = vec (k * n) fun q => coeff (rot n (q % n) (x.get (q / n))) i :=
  vec_congr fun q _ => (coeff_rot_of_lt (Nat.mod_lt q (Nat.zero_lt_of_lt hi)) hi _).symm

/-- R393: the bits of the extracted key. -/
theorem bitAt_extractedKey (key : KeyR) {q : Nat} (hq : q < key.k * key.deg) :
    bitAt (extractedKey key) q = bitAt (key.s.getD (q / key.deg) []) (q % key.deg) := by
  rw [bitAt, extractedKey, vec_getD, if_pos hq, bitAt]

/-- R391, R393, R408: the inner product with the extracted key is the key sum. -/
theorem dot_rlweExtract {n i : Nat} (hi : i < n) (x : Rlwe) {key : KeyR} (hdeg : key.deg = n) :
    dot (key.k * n) (rlweExtract n key.k i x).a (extractedKey key) = ksumAt n key.k key.s x i := by
  subst hdeg
  rw [rlweExtract_a hi, dot_vec, ksumAt_eq hi, ← sum_range_blocks]
  refine Finset.sum_congr rfl fun q hq => ?_
  rw [bitAt_extractedKey key (Finset.mem_range.mp hq)]

/-- Settles O35: both phases take the same sum off coefficient `i` of the last component. -/
theorem extractionKeepsThePhase : Obligations.ExtractionKeepsThePhase := by
  rintro n k i x key hi hdeg rfl
  calc lwePhaseOf (rlweExtract n key.k i x) (extractedKey key)
      = coeff (x.get key.k) i - dot (key.k * n) (rlweExtract n key.k i x).a (extractedKey key) := rfl
    _ = coeff (x.get key.k) i - ksumAt n key.k key.s x i := by rw [dot_rlweExtract hi x hdeg]
    _ = coeff (rlwePhase n key.k key.s x) i := by rw [rlwePhase, coeff_vec, if_pos hi]

section
variable {s : State} (hring : s.ringOk = true)
include hring

/-- R408: past the operands only the index is left to check. -/
theorem execRExtract_eq_needBelow {a : RIdx} {b : SIdx} {x : RReg} {i : Word} (hx : s.rRegs[a] = some x)
    (hi : s.getS b = some i) (hdeg : x.deg = s.ringN) (hrank : x.k = s.rankK) (d : LIdx) : execRExtract d a b s =
      needBelow s i s.ringN fun _ => done (s.setL d (rlweExtract s.ringN s.rankK i.toNat x.val)) := by
  rw [execRExtract, needRing_ok hring, withR_some hx, withS_some hi, tagR_ok hdeg hrank]

end

/-- Settles O34: the sample written is the extraction; its entries are those of the rule. -/
theorem rlweExtractResult : Obligations.RlweExtractResult := by
  intro s d a b x i hring hx hb hdeg hrank
  have hexec := execRExtract_eq_needBelow hring hx hb hdeg hrank d
  refine ⟨fun hlt => ⟨rlweExtract s.ringN s.rankK i.toNat x.val, ?_, rfl, vec_length .., rfl, rfl, ?_⟩, fun hge => ?_⟩
  · exact hexec.trans (needBelow_ok hlt _)
  · intro m j hm hj
    rw [rlweExtract_a hlt, coeff_vec_block (fun m j => coeff (rot s.ringN j (x.val.get m)) i.toNat) hm hj,
      coeff_rot_of_lt hj hlt]
  · exact hexec.trans (needBelow_not hge _)

/-! ### Encryption (R400, R401) -/

/-- R400, R401, R16: the k uniform components and the noise are free, the noise within its bound. -/
theorem rlweFresh_spec (n k : Nat) (key : List (List Bool)) (mu : List Word) (alpha : F64) (c : Nat) :
    ∃ (u : Nat → Nat → Word) (e : Nat → Int),
      (∀ i bound, Config.gaussBound alpha = some bound → (e i).natAbs ≤ bound) ∧
      rlweFresh n k key mu alpha c = ⟨vec (k + 1) fun q => vec n fun i =>
        if q < k then u q i
        else ksumAt n k key ⟨vec k fun m => vec n (u m), 0⟩ i + u32 (e i) + coeff mu i, f64mul alpha alpha⟩ := by
  refine ⟨fun m i => Config.freeU32 (c + m * n + i), fun i => drawGauss alpha (c + k * n + i),
    fun i bound hbound => drawGauss_le hbound, ?_⟩
  rw [rlweFresh, rlweEncrypt, Rlwe.mk.injEq]
  refine ⟨vec_congr fun q _ => ?_, rfl⟩
  split
  case isTrue hq =>
    refine vec_congr fun i hi => ?_
    rw [uniformPolys, get_vec, if_pos hq, coeff_vec, if_pos hi]
  case isFalse =>
    refine vec_congr fun i hi => ?_
    rw [noisePoly, icoeff_vec, if_pos hi]
    rfl

section
variable {s : State} (hring : s.ringOk = true) {key : KeyR} (hkey : s.keyR = some key) (hdeg : key.deg = s.ringN)
  (hrank : key.k = s.rankK)
include hring hkey hdeg hrank

theorem execREnc0_ok (d : RIdx) : execREnc0 d s =
    .next ((s.setR d (rlweFresh s.ringN s.rankK key.s [] s.alpha s.drawCtr)).bump
      (s.rankK * s.ringN + s.ringN)).advance := by
  rw [execREnc0, needRing_ok hring, withKeyR_some hkey hdeg hrank, done, encDraws]

theorem execREnc_ok {a : PIdx} {mu : PReg} (hmu : s.pRegs[a] = some mu) (hmudeg : mu.deg = s.ringN) (d : RIdx) :
    execREnc d a s = .next ((s.setR d (rlweFresh s.ringN s.rankK key.s mu.c s.alpha s.drawCtr)).bump
      (s.rankK * s.ringN + s.ringN)).advance := by
  rw [execREnc, needRing_ok hring, withP_some hmu, tagP_ok hmudeg, withKeyR_some hkey hdeg hrank, done, encDraws]

end

/-- Settles O31: R.ENC0 is R.ENC with the zero message. -/
theorem rlweEncryptResults : Obligations.RlweEncryptResults := by
  intro s d a key hring hkey hdeg hrank
  refine ⟨?_, fun mu hmu hmudeg => ?_⟩
  · obtain ⟨u, e, hbound, hfresh⟩ := rlweFresh_spec s.ringN s.rankK key.s [] s.alpha s.drawCtr
    have hzero (i : Nat) : coeff [] i = 0 := rfl
    simp only [hzero, add_zero] at hfresh
    refine ⟨u, e, hbound, ?_⟩
    rw [← hfresh]
    exact execREnc0_ok hring hkey hdeg hrank d
  · obtain ⟨u, e, hbound, hfresh⟩ := rlweFresh_spec s.ringN s.rankK key.s mu.c s.alpha s.drawCtr
    refine ⟨u, e, hbound, ?_⟩
    rw [← hfresh]
    exact execREnc_ok hring hkey hdeg hrank hmu hmudeg d

/-! ### Phase, trivial samples and linear operations (R402 to R407) -/

section
variable {s : State} (hring : s.ringOk = true)
include hring

theorem execRTriv_ok {a : PIdx} {mu : PReg} (hmu : s.pRegs[a] = some mu) (hdeg : mu.deg = s.ringN) (d : RIdx) :
    execRTriv d a s = .next (s.setR d (rlweTrivial s.ringN s.rankK mu.c)).advance := by
  rw [execRTriv, needRing_ok hring, withP_some hmu, tagP_ok hdeg, done]

variable {a : RIdx} {x : RReg} (hx : s.rRegs[a] = some x) (hdeg : x.deg = s.ringN) (hrank : x.k = s.rankK)
include hx hdeg hrank

theorem execRPhase_ok {key : KeyR} (hkey : s.keyR = some key) (hkdeg : key.deg = s.ringN) (hkrank : key.k = s.rankK)
    (d : PIdx) : execRPhase d a s = .next (s.setP d (rlwePhase s.ringN s.rankK key.s x.val)).advance := by
  rw [execRPhase, needRing_ok hring, withR_some hx, tagR_ok hdeg hrank, withKeyR_some hkey hkdeg hkrank, done]

theorem rlweAcc_ok {d : RIdx} {acc : RReg} (hacc : s.rRegs[d] = some acc) (haccdeg : acc.deg = s.ringN)
    (haccrank : acc.k = s.rankK) (f : Word → Word → Word) : rlweAcc f d a s =
      .next (s.setR d (rlweCombine f s.ringN s.rankK (f64add acc.val.var x.val.var) acc.val x.val)).advance := by
  rw [rlweAcc, needRing_ok hring, withR_some hx, withR_some hacc, tagR_ok hdeg hrank, tagR_ok haccdeg haccrank, done]

/-- R407: past the operands only the exponent's limit is left to check. -/
theorem execRMulxaim1_eq_needBelow {b : SIdx} {e : Word} (he : s.getS b = some e) (d : RIdx) :
    execRMulxaim1 d a b s = needBelow s e (2 * s.ringN) fun _ =>
      done ((s.setR d (rlweMulXaiM1 s.ringN s.rankK e.toNat x.val (Config.freeF64 s.drawCtr))).bump 1) := by
  rw [execRMulxaim1, needRing_ok hring, withR_some hx, withS_some he, tagR_ok hdeg hrank]

theorem execRAddmulr_ok {p : PReg} {acc : RReg} {c : PIdx} {d : RIdx} (hp : s.pRegs[c] = some p)
    (hacc : s.rRegs[d] = some acc) (hpdeg : p.deg = s.ringN) (haccdeg : acc.deg = s.ringN)
    (haccrank : acc.k = s.rankK) : execRAddmulr d c a s =
      .next ((s.setR d (rlweAddMul s.ringN s.rankK p.c acc.val x.val s.drawCtr)).bump
        ((s.rankK + 1) * s.ringN)).advance := by
  rw [execRAddmulr, needRing_ok hring, withP_some hp, withR_some hx, withR_some hacc, tagP_ok hpdeg,
    tagR_ok hdeg hrank, tagR_ok haccdeg haccrank, done]

end

/-- Settles O32: with the checks passed, each instruction writes the value of its rule. -/
theorem rlweLinearResults : Obligations.RlweLinearResults := by
  refine ⟨fun s d r hring => ⟨fun x key hx hdeg hrank hkey hkdeg hkrank => ?_, fun mu hmu hdeg => ?_⟩,
    fun s d a b x acc e hring hx hdeg hrank => ⟨fun hacc haccdeg haccrank => ?_, fun he => ?_⟩⟩
  · exact execRPhase_ok hring hx hdeg hrank hkey hkdeg hkrank d
  · exact execRTriv_ok hring hmu hdeg r
  · have hexec := rlweAcc_ok hring hx hdeg hrank hacc haccdeg haccrank
    exact ⟨hexec _, hexec _⟩
  · have hexec := execRMulxaim1_eq_needBelow hring hx hdeg hrank he d
    exact ⟨fun hlt => ⟨Config.freeF64 s.drawCtr, hexec.trans (needBelow_ok hlt _)⟩,
      fun hge => hexec.trans (needBelow_not hge _)⟩

/-! ### The product with a polynomial (R406, R323) -/

/-- R296, R406: a coefficient of the product through the FFT engine. -/
theorem coeff_fftProduct {n i : Nat} (hi : i < n) (x y : List Word) (c : Nat) : coeff (fftProduct n x y c) i =
    u32 (nprodAt n (ints n x) (ints n y) i + drawErr (errBound n (.m (sbits (ints n x)) 1)) (c + i)) := by
  rw [fftProduct, coeff_vec, if_pos hi]

/-- R406: the sample R.ADDMULR writes, with its errors. -/
theorem rlweAddMul_eq (n k : Nat) (p : List Word) (acc src : Rlwe) (c : Nat) : rlweAddMul n k p acc src c =
    ⟨vec (k + 1) fun q => vec n fun i => coeff (acc.get q) i + u32 (nprodAt n (ints n p) (ints n (src.get q)) i
        + drawErr (errBound n (.m (sbits (ints n p)) 1)) (c + q * n + i)),
      f64add acc.var (f64mul (f64fromInt (∑ i ∈ Finset.range n, (coeff p i).toInt ^ 2)) src.var)⟩ := by
  rw [rlweAddMul, normSq_eq, Rlwe.mk.injEq]
  exact ⟨vec_congr fun q _ => vec_congr fun i hi => by rw [coeff_fftProduct hi], rfl⟩

/-- Settles O33: the errors are the draws numbered from the state's counter. -/
theorem rlweAddMulResult : Obligations.RlweAddMulResult := by
  intro s d a b p src acc hring hp hsrc hacc hpdeg hsrcdeg hsrcrank haccdeg haccrank
  refine ⟨fun q i => drawErr (errBound s.ringN (.m (sbits (ints s.ringN p.c)) 1)) (s.drawCtr + q * s.ringN + i),
    fun q i => ⟨fun hnarrow => ?_, fun hwide bound hbound => ?_⟩, ?_⟩
  · exact drawErr_le (errBound_narrow hnarrow _)
  · exact drawErr_le ((errBound_wide hwide _).trans hbound)
  · rw [← rlweAddMul_eq]
    exact execRAddmulr_ok hring hsrc hsrcdeg hsrcrank hp hacc hpdeg haccdeg haccrank

/-! ### The sample image (R113) -/

/-- R113: the words of an image, in order. -/
theorem coeff_rlweToWords (x : Rlwe) (n k : Nat) :
    (∀ q i, q ≤ k → i < n → coeff (x.toWords n k) (q * n + i) = coeff (x.get q) i) ∧
    coeff (x.toWords n k) ((k + 1) * n) = x.var.extractLsb' 0 32 ∧
    coeff (x.toWords n k) ((k + 1) * n + 1) = x.var.extractLsb' 32 32 := by
  refine ⟨fun q i hq hi => ?_, ?_, ?_⟩
  · have hq : q < k + 1 := Nat.lt_succ_of_le hq
    rw [← coeff_vec_block (fun q i => coeff (x.get q) i) hq hi, coeff, Rlwe.toWords,
      List.getD_append _ _ _ _ (by rw [vec_length]; exact mul_add_lt_mul hq hi), ← coeff]
  all_goals rw [coeff, Rlwe.toWords, List.getD_append_right _ _ _ _ (by simp)]; simp

/-! ### Loads and stores (R409, R410) -/

section
variable {s : State} {a : SIdx} {imm base : Word} (hring : s.ringOk = true) (ha : s.getS a = some base)
  (hspan : s.spanOk (base + imm) (rStride s.ringN s.rankK))
include hring ha hspan

theorem execRLd_of_span (d : RIdx) : execRLd d a imm s =
    .next ((s.afterLoad (base + imm) ((s.rankK + 1) * s.ringN + 2)).setR d
      (Rlwe.ofWords s.ringN s.rankK (loaded s (base + imm) ((s.rankK + 1) * s.ringN + 2)) 0)).advance := by
  obtain ⟨hal, hin⟩ := hspan
  rw [execRLd, needRing_ok hring, withS_some ha, effAddr, needSpan_ok hal hin, done]

theorem execRSt_of_span {d : RIdx} {x : RReg} (hx : s.rRegs[d] = some x) (hdeg : x.deg = s.ringN)
    (hrank : x.k = s.rankK) : execRSt d a imm s =
      .next (s.store (base + imm).toNat (x.val.toWords s.ringN s.rankK)).advance := by
  obtain ⟨hal, hin⟩ := hspan
  rw [execRSt, needRing_ok hring, withS_some ha, withR_some hx, tagR_ok hdeg hrank, effAddr, needSpan_ok hal hin, done]

end

/-- Settles O36: R.LD reads the sample off the words of its span, and R.ST stores the image of its register. -/
theorem rlweLoadStoreResults : Obligations.RlweLoadStoreResults := by
  intro s d a imm base hring ha hspan
  refine ⟨?_, fun x hx hdeg hrank => ?_⟩
  · obtain ⟨w, draws, hlen, hwords, hloaded, hafter⟩ := loaded_spec s (base + imm) ((s.rankK + 1) * s.ringN + 2)
    have hexec := execRLd_of_span hring ha hspan d
    rw [hloaded, hafter, Rlwe.ofWords] at hexec
    simp only [Nat.zero_add] at hexec
    exact ⟨w, draws, hlen, hwords, hexec⟩
  · obtain ⟨hcomp, hlow, hhigh⟩ := coeff_rlweToWords x.val s.ringN s.rankK
    exact ⟨x.val.toWords s.ringN s.rankK, by simp [Rlwe.toWords], hcomp, hlow, hhigh,
      execRSt_of_span hring ha hspan hx hdeg hrank⟩

end Sys2Proof.Machine
end

section
/-! PROOF of O37 to O41: the gadget, RGSW samples and the external product (R430 to R443). The digits of x + offset are
its base-Bg digits from the top, so the values they stand for sum to it but for the bits below the last digit; the
offset takes Bg/2 off every digit and holds none of those bits. The bare gadget matrix multiplies each digit polynomial
by its H[j], and so the external product by it puts every coefficient together again. -/

open scoped BigOperators

namespace Sys2Proof.Machine

/-! ### Digits and their reconstruction (R430 to R434) -/

section
variable {l bg : Nat}

/-- R433: the `l` top digits of 32 bits, each at its place, and the bits below the last digit make them up. -/
theorem sum_topDigits_add_mod (x : Nat) (h : l * bg ≤ 32) :
    ∑ j ∈ Finset.range l, x / 2 ^ (32 - (j + 1) * bg) % 2 ^ bg * gadgetH bg j + x % 2 ^ (32 - l * bg) =
      x % 2 ^ 32 := by
  induction l with
  | zero => simp
  | succ l ih =>
    have hwidth : 32 - l * bg = 32 - (l + 1) * bg + bg := by rw [Nat.succ_mul] at h ⊢; omega
    have hsplit : x % 2 ^ (32 - l * bg) =
        x / 2 ^ (32 - (l + 1) * bg) % 2 ^ bg * gadgetH bg l + x % 2 ^ (32 - (l + 1) * bg) := by
      rw [hwidth, pow_add, Nat.mod_mul, Nat.add_comm, Nat.mul_comm (2 ^ _), gadgetH]
    rw [Finset.sum_range_succ, Nat.add_assoc, ← hsplit, ih (le_trans (Nat.mul_le_mul_right bg l.le_succ) h)]

/-- R432: the offset has no bits below the last digit. -/
theorem dvd_decOffset : 2 ^ (32 - l * bg) ∣ (decOffset l bg).toNat := by
  have hsum : 2 ^ (32 - l * bg) ∣ 2 ^ (bg - 1) * ∑ j ∈ Finset.range l, gadgetH bg j := by
    refine Dvd.dvd.mul_left (Finset.dvd_sum fun j hj => ?_) _
    have hj : (j + 1) * bg ≤ l * bg := Nat.mul_le_mul_right bg (Finset.mem_range.mp hj)
    exact pow_dvd_pow 2 (by omega)
  rw [decOffset, BitVec.toNat_ofNat]
  exact (Nat.dvd_mod_iff (pow_dvd_pow 2 (Nat.sub_le 32 _))).mpr hsum

/-- R434: adding the offset keeps the bits below the last digit. -/
theorem add_decOffset_mod (x : Word) :
    (x + decOffset l bg).toNat % 2 ^ (32 - l * bg) = x.toNat % 2 ^ (32 - l * bg) := by
  rw [BitVec.toNat_add, Nat.mod_mod_of_dvd _ (pow_dvd_pow 2 (Nat.sub_le 32 _)), Nat.add_mod,
    Nat.mod_eq_zero_of_dvd dvd_decOffset, Nat.add_zero, Nat.mod_mod]

/-- R433: a digit lies in [−Bg/2, Bg/2). -/
theorem decDigit_bounds (hbg : 1 ≤ bg) (l j : Nat) (x : Word) :
    -2 ^ (bg - 1) ≤ decDigit l bg j x ∧ decDigit l bg j x < 2 ^ (bg - 1) := by
  have hBg : (2 : Int) ^ bg = 2 * 2 ^ (bg - 1) := by rw [← pow_succ', Nat.sub_add_cancel hbg]
  have hlt : (((x + decOffset l bg).toNat / 2 ^ (32 - (j + 1) * bg) % 2 ^ bg : Nat) : Int) < 2 ^ bg := by
    exact_mod_cast Nat.mod_lt _ (Nat.two_pow_pos bg)
  rw [decDigit]
  omega

/-- R434: the digits rebuild the word but for the bits below the last digit. -/
theorem u32_sum_decDigit (h : l * bg ≤ 32) (x : Word) :
    u32 (∑ j ∈ Finset.range l, decDigit l bg j x * (gadgetH bg j : Int)) =
      x - BitVec.ofNat 32 (x.toNat % 2 ^ (32 - l * bg)) := by
  have hdigits : ∑ j ∈ Finset.range l, decDigit l bg j x * (gadgetH bg j : Int) =
      ((x + decOffset l bg).toNat : Int) - (x.toNat % 2 ^ (32 - l * bg) : Nat)
        - (2 ^ (bg - 1) * ∑ j ∈ Finset.range l, gadgetH bg j : Nat) := by
    have htop := sum_topDigits_add_mod (x + decOffset l bg).toNat h
    rw [add_decOffset_mod, Nat.mod_eq_of_lt (BitVec.isLt _)] at htop
    rw [← htop]
    simp only [decDigit, sub_mul, Finset.sum_sub_distrib, Finset.mul_sum]
    push_cast
    ring
  rw [hdigits, u32_sub, u32_sub, u32_natCast, u32_natCast, u32_natCast, BitVec.ofNat_toNat, BitVec.setWidth_eq,
    ← decOffset, add_sub_right_comm, add_sub_cancel_right]

end

/-- Settles O38: the range of each digit, and the sum. -/
theorem gadgetReconstruction : Obligations.GadgetReconstruction := by
  intro l bg x _ hbg h
  exact ⟨fun j _ => decDigit_bounds hbg l j x, u32_sum_decDigit h x⟩

/-! ### The external product (R443) -/

/-- R443: the result, each coefficient with its error. -/
theorem extprod_eq (n k l bg : Nat) (g : Rgsw) (c : Rlwe) (c0 : Nat) (var : F64) : extprod n k l bg g c c0 var =
    ⟨vec (k + 1) fun r => vec n fun t =>
      u32 (∑ p ∈ Finset.range ((k + 1) * l), nprodAt n (decPoly n l bg (p % l) (c.get (p / l)))
          (ints n ((g.rows.getD p ⟨[], 0⟩).get r)) t
        + drawErr (errBound n (.m bg ((k + 1) * l))) (c0 + r * n + t)), var⟩ := by
  rw [extprod, Rlwe.mk.injEq]
  refine ⟨vec_congr fun r _ => vec_congr fun t _ => ?_, rfl⟩
  rw [extSumAt]
  congr 2
  refine Finset.sum_congr rfl fun p hp => ?_
  have hp : p < (k + 1) * l := Finset.mem_range.mp hp
  rw [vec_getD, vec_getD, if_pos hp, if_pos hp, f64Zero]

/-- R17: a product with a constant polynomial multiplies each coefficient. -/
theorem u32_nprodAt_constant {n t : Nat} (ht : t < n) (x : List Int) (h : Word) :
    u32 (nprodAt n x (ints n (vec n fun i => if i = 0 then h else 0)) t) = u32 (icoeff x t) * h := by
  have hconstant (j : Nat) (hj : j < n) :
      icoeff (ints n (vec n fun i => if i = 0 then h else 0)) j = if 0 = j then h.toInt else 0 := by
    rw [icoeff_ints, if_pos hj, coeff_vec, if_pos hj, apply_ite BitVec.toInt]
    exact if_congr eq_comm rfl rfl
  rw [nprodAt_comm, nprodAt_single (Nat.zero_lt_of_lt ht) ht hconstant, if_pos (Nat.zero_le t), Nat.sub_zero, u32_mul,
    u32_toInt, mul_comm]

/-- R443: row `(q, j)` of the bare gadget matrix takes digit `j` of component `q`, times H[j], to component `q` only. -/
theorem u32_nprodAt_gadgetRow {n t : Nat} (ht : t < n) (l bg q j r : Nat) (c : List Word) :
    u32 (nprodAt n (decPoly n l bg j c)
        (ints n (vec n fun i => if r = q ∧ i = 0 then BitVec.ofNat 32 (gadgetH bg j) else 0)) t) =
      if q = r then u32 (decDigit l bg j (coeff c t) * (gadgetH bg j : Int)) else 0 := by
  have hrow : (fun i => if r = q ∧ i = 0 then BitVec.ofNat 32 (gadgetH bg j) else 0) =
      fun i => if i = 0 then (if q = r then BitVec.ofNat 32 (gadgetH bg j) else 0) else 0 := by
    funext i
    rw [← ite_and]
    exact if_congr (by tauto) rfl rfl
  rw [hrow, u32_nprodAt_constant ht, decPoly, icoeff_vec, if_pos ht, u32_mul, u32_natCast, mul_ite, mul_zero]

/-- R434, R443: the products with the rows of the bare gadget matrix sum to the coefficient, rebuilt from its digits. -/
theorem u32_sum_gadgetMatrix {n k l bg r t : Nat} (h : l * bg ≤ 32) (hr : r ≤ k) (ht : t < n) (c : Rlwe) :
    u32 (∑ p ∈ Finset.range ((k + 1) * l), nprodAt n (decPoly n l bg (p % l) (c.get (p / l)))
        (ints n (vec n fun i => if r = p / l ∧ i = 0 then BitVec.ofNat 32 (gadgetH bg (p % l)) else 0)) t) =
      coeff (c.get r) t - BitVec.ofNat 32 ((coeff (c.get r) t).toNat % 2 ^ (32 - l * bg)) := by
  calc _ = ∑ p ∈ Finset.range ((k + 1) * l), if p / l = r then
          u32 (decDigit l bg (p % l) (coeff (c.get (p / l)) t) * (gadgetH bg (p % l) : Int)) else 0 := by
        rw [u32_sum]
        exact Finset.sum_congr rfl fun p _ => u32_nprodAt_gadgetRow ht ..
    _ = ∑ q ∈ Finset.range (k + 1), ∑ j ∈ Finset.range l,
          if q = r then u32 (decDigit l bg j (coeff (c.get q) t) * (gadgetH bg j : Int)) else 0 :=
        sum_range_blocks l (k + 1) fun q j =>
          if q = r then u32 (decDigit l bg j (coeff (c.get q) t) * (gadgetH bg j : Int)) else 0
    _ = u32 (∑ j ∈ Finset.range l, decDigit l bg j (coeff (c.get r) t) * (gadgetH bg j : Int)) := by
        rw [Finset.sum_eq_single_of_mem r (Finset.mem_range.mpr (Nat.lt_succ_of_le hr))
          fun q _ hq => by simp only [if_neg hq, Finset.sum_const_zero], u32_sum]
        simp only [if_true]
    _ = _ := u32_sum_decDigit h _

/-- Settles O41: the products rebuild the coefficient; the error comes on top. -/
theorem externalProductByGadgetMatrix : Obligations.ExternalProductByGadgetMatrix := by
  intro n k l bg g c c0 var _ _ _ h hrows r t hr ht
  rw [extprod_eq, get_vec, if_pos (Nat.lt_succ_of_le hr), coeff_vec, if_pos ht, u32_add,
    ← u32_sum_gadgetMatrix h hr ht]
  congr 2
  refine Finset.sum_congr rfl fun p hp => ?_
  rw [hrows, vec_getD, if_pos (Finset.mem_range.mp hp), get_vec, if_pos (Nat.lt_succ_of_le hr)]

section
variable {s : State} {slot : Nat}

theorem withSlot_none (h : s.getBk slot = none) (k : Rgsw → Result) :
    withSlot s slot k = raise s (.uninit .bk slot) := by
  simp only [withSlot, h]

theorem withSlot_stale {g : Rgsw} (h : s.getBk slot = some g) (hstale : bkFits s g = false) (k : Rgsw → Result) :
    withSlot s slot k = raise s (.mismatch .bk slot) := by
  simp only [withSlot, h, need_false hstale]

end

section
variable {s : State} (hring : s.ringOk = true) (hgad : s.gadOk = true)
include hring hgad

/-- R443: past the operands only the slot is left to check. -/
theorem execGExtprod_eq_needBelow {a : RIdx} {b : SIdx} {c : RReg} {slot : Word} (hc : s.rRegs[a] = some c)
    (hb : s.getS b = some slot) (hdeg : c.deg = s.ringN) (hrank : c.k = s.rankK) (d : RIdx) : execGExtprod d a b s =
      needBelow s slot s.params.bkSlots fun _ => withSlot s slot.toNat fun g =>
        done ((s.setR d (extprod s.ringN s.rankK s.gadL s.gadBits g c.val s.drawCtr
          (Config.freeF64 s.drawCtr))).bump ((s.rankK + 1) * s.ringN)) := by
  rw [execGExtprod, needRing_ok hring, needGad_ok hgad, withR_some hc, withS_some hb, tagR_ok hdeg hrank, extDraws]

end

/-- Settles O40: the errors are the draws numbered from the state's counter; past the operands the slot's checks are
left, in the rule's order. -/
theorem externalProductResult : Obligations.ExternalProductResult := by
  intro s d a b c slot hring hgad hc hb hdeg hrank
  have hexec := execGExtprod_eq_needBelow hring hgad hc hb hdeg hrank d
  refine ⟨fun hge => hexec.trans (needBelow_not hge _), fun hlt => ?_⟩
  rw [needBelow_ok hlt] at hexec
  refine ⟨fun g hg hfits => ?_, fun hnone => hexec.trans (withSlot_none hnone _),
    fun g hg hstale => hexec.trans (withSlot_stale hg hstale _)⟩
  refine ⟨fun r t => drawErr (errBound s.ringN (.m s.gadBits ((s.rankK + 1) * s.gadL))) (s.drawCtr + r * s.ringN + t),
    Config.freeF64 s.drawCtr, fun r t bound hbound => drawErr_le hbound, ?_⟩
  rw [← extprod_eq]
  exact hexec.trans (withSlot_some hg hfits _)

/-! ### Decomposition (R440) -/

/-- R440: with the operands in order, the run of writes or the fault of one past P15. -/
theorem execGDecomp_eq_need {s : State} {a : PIdx} {x : PReg} (hN : s.nOk = true) (hgad : s.gadOk = true)
    (hx : s.pRegs[a] = some x) (hdeg : x.deg = s.ringN) (d : PIdx) : execGDecomp d a s =
      need s (d.val + s.gadL ≤ 16) (.badOperand s.csr.bkL) fun _ =>
        done (s.setPs d.val (decWords s.ringN s.gadL s.gadBits x.c)) := by
  rw [execGDecomp, needN_ok hN, needGad_ok hgad, withP_some hx, tagP_ok hdeg]

/-- R433, R440: the registers after the run. -/
theorem setPs_decWords_pRegs {s : State} {d : Nat} (h : d + s.gadL ≤ 16) (c : List Word) (j : PIdx) :
    (s.setPs d (decWords s.ringN s.gadL s.gadBits c)).pRegs[j] =
      if d ≤ j.val ∧ j.val < d + s.gadL then
        some ⟨s.ringN, vec s.ringN fun i => u32 (decDigit s.gadL s.gadBits (j.val - d) (coeff c i))⟩
      else s.pRegs[j] := by
  rw [setPs_pRegs _ s d (by rwa [decWords, vec_length]), decWords, vec_length]
  split
  case isTrue hj => rw [vec_getD, if_pos (by omega)]
  case isFalse => rfl

/-- Settles O37: the registers after the run of writes, and that it changes nothing else but pc. -/
theorem gadgetDecomposeResult : Obligations.GadgetDecomposeResult := by
  intro s d a x hN hgad hx hdeg
  have hexec := execGDecomp_eq_need hN hgad hx hdeg d
  have hpc : (s.setPs d.val (decWords s.ringN s.gadL s.gadBits x.c)).pc = s.pc :=
    setPs_keeps State.pc (fun _ _ => rfl) ..
  refine ⟨fun hfits => ?_, fun hpast => hexec.trans (need_false (decide_eq_false (Nat.not_le.mpr hpast)) ..)⟩
  refine ⟨_, hexec.trans (need_true (decide_eq_true hfits) ..), ?_, setPs_decWords_pRegs hfits x.c, ?_⟩
  · rw [State.advance_pc, hpc]
  · rw [← hpc]
    exact setPs_frame ..

/-! ### Encryption and loads (R441, R442) -/

/-- R400, R441, R16: every row's uniform components and noise are free, the noise within its bound. -/
theorem rgswRows_spec (n k l bg : Nat) (key : List (List Bool)) (m : Word) (alpha : F64) (c : Nat) :
    ∃ (u : Nat → Nat → Nat → Word) (e : Nat → Nat → Int),
      (∀ p i bound, Config.gaussBound alpha = some bound → (e p i).natAbs ≤ bound) ∧
      rgswRows n k l bg key m alpha c = vec ((k + 1) * l) fun p =>
        ⟨vec (k + 1) fun q => vec n fun i =>
          (if q < k then u p q i else ksumAt n k key ⟨vec k fun r => vec n (u p r), 0⟩ i + u32 (e p i))
            + (if q = p / l ∧ i = 0 then m * BitVec.ofNat 32 (2 ^ (32 - (p % l + 1) * bg)) else 0),
        f64mul alpha alpha⟩ := by
  choose u e hbound hfresh using fun p => rlweFresh_spec n k key [] alpha (c + p * encDraws n k)
  refine ⟨u, e, hbound, vec_congr fun p _ => ?_⟩
  rw [hfresh, addGadget, Rlwe.mk.injEq]
  refine ⟨vec_congr fun q hq => vec_congr fun i hi => ?_, rfl⟩
  have hzero : coeff [] i = 0 := rfl
  rw [get_vec, if_pos hq, coeff_vec, if_pos hi, hzero, add_zero]
  split
  case isTrue => rfl
  case isFalse => rw [add_zero]

section
variable {s : State} (hring : s.ringOk = true) (hgad : s.gadOk = true)
include hring hgad

/-- R441: past the operands only the slot is left to check. -/
theorem execGEnc_eq_needBelow {a b : SIdx} {slot m : Word} {key : KeyR} (ha : s.getS a = some slot)
    (hb : s.getS b = some m) (hkey : s.keyR = some key) (hdeg : key.deg = s.ringN) (hrank : key.k = s.rankK) :
    execGEnc a b s = needBelow s slot s.params.bkSlots fun _ =>
      done ((s.setBk slot.toNat (rgswRows s.ringN s.rankK s.gadL s.gadBits key.s m s.alpha s.drawCtr)).bump
        ((s.rankK + 1) * s.gadL * (s.rankK * s.ringN + s.ringN))) := by
  rw [execGEnc, needRing_ok hring, needGad_ok hgad, withS_some ha, withS_some hb, withKeyR_some hkey hdeg hrank,
    State.kpl, encDraws]

/-- R442: past the operands the slot and the transfer are left to check. -/
theorem execGLd_eq_needBelow {a d : SIdx} {base slot : Word} (ha : s.getS a = some base) (hd : s.getS d = some slot)
    (imm : Word) : execGLd d a imm s = needBelow s slot s.params.bkSlots fun _ =>
      needSpan s (base + imm) (s.kpl * rStride s.ringN s.rankK) fun _ =>
        done ((s.afterLoad (base + imm) (s.kpl * rowWords s.ringN s.rankK)).setBk slot.toNat
          (vec s.kpl fun p => Rlwe.ofWords s.ringN s.rankK
            (loaded s (base + imm) (s.kpl * rowWords s.ringN s.rankK)) (p * rowWords s.ringN s.rankK))) := by
  rw [execGLd, needRing_ok hring, needGad_ok hgad, withS_some ha, withS_some hd, effAddr]

end

/-- Settles O39: G.ENC writes the rows with their draws, G.LD reads them off the words of its span. -/
theorem gadgetKeyResults : Obligations.GadgetKeyResults := by
  refine ⟨fun s a b slot m key hring hgad ha hb hkey hdeg hrank => ?_,
    fun s d a imm base slot hring hgad ha hd => ?_⟩
  · have hexec := execGEnc_eq_needBelow hring hgad ha hb hkey hdeg hrank
    refine ⟨fun hlt => ?_, fun hge => hexec.trans (needBelow_not hge _)⟩
    obtain ⟨u, e, hbound, hrows⟩ := rgswRows_spec s.ringN s.rankK s.gadL s.gadBits key.s m s.alpha s.drawCtr
    refine ⟨u, e, hbound, ?_⟩
    rw [← hrows]
    exact hexec.trans (needBelow_ok hlt _)
  · have hexec := execGLd_eq_needBelow hring hgad ha hd imm
    refine ⟨fun hlt hspan => ?_, fun hge => hexec.trans (needBelow_not hge _)⟩
    obtain ⟨hal, hin⟩ : s.spanOk (base + imm) (s.kpl * rStride s.ringN s.rankK) := hspan
    obtain ⟨w, draws, -, hwords, hloaded, hafter⟩ := loaded_spec s (base + imm) (s.kpl * rowWords s.ringN s.rankK)
    rw [needBelow_ok hlt, needSpan_ok hal hin, hloaded, hafter] at hexec
    exact ⟨w, draws, hwords, hexec⟩

end Sys2Proof.Machine
end

section
/-! PROOF of O42 to O44: key switching (R460 to R465), and the results of the instructions built on it (R490 to R492).
The double loop subtracts, in order, the entries that non-zero digits select. So it is a fold of `lweSub` over the
list of those entries, and each word of the result, and its variance, is a fold of its own. The digits are the top
digits of the rounded word, as in the gadget's decomposition. -/

open scoped BigOperators

namespace Sys2Proof.Machine

/-! ### The digits (R462, R463) -/

/-- Rounding down to a multiple of a divisor of the modulus, before or after reducing by the modulus. -/
theorem div_mul_mod_of_dvd {b m : Nat} (h : b ∣ m) (y : Nat) : y / b * b % m + y % m % b = y % m := by
  obtain ⟨q, rfl⟩ := h
  rw [Nat.mod_mul_right_mod, Nat.mul_comm (y / b), Nat.mul_mod_mul_left, Nat.mod_mul, Nat.add_comm]

/-- R463: the digits rebuild a_i rounded, ties up. -/
theorem sum_ksDigit {t bb : Nat} (h : t * bb ≤ 32) (a : Word) :
    ∑ j ∈ Finset.range t, ksDigit t bb j a * 2 ^ (32 - (j + 1) * bb) =
      (a.toNat + 2 ^ (31 - t * bb)) / 2 ^ (32 - t * bb) * 2 ^ (32 - t * bb) % 2 ^ 32 := by
  have hprec : (2 : Nat) ^ (31 - t * bb) < 2 ^ 32 := Nat.pow_lt_pow_right (by norm_num) (by omega)
  have hsum : (a + ksPrec t bb).toNat = (a.toNat + 2 ^ (31 - t * bb)) % 2 ^ 32 := by
    rw [BitVec.toNat_add, ksPrec, BitVec.toNat_ofNat, Nat.mod_eq_of_lt hprec]
  have htop := sum_topDigits_add_mod (a + ksPrec t bb).toNat h
  have hround := div_mul_mod_of_dvd (pow_dvd_pow 2 (Nat.sub_le 32 (t * bb))) (a.toNat + 2 ^ (31 - t * bb))
  rw [Nat.mod_eq_of_lt (BitVec.isLt _), hsum] at htop
  simp only [ksDigit, hsum]
  exact Nat.add_right_cancel (htop.trans hround.symm)

/-- Settles O44: a digit is the shift and the mask of its definition, and the digits sum to the rounded word. -/
theorem keySwitchDigitsRound : Obligations.KeySwitchDigitsRound := by
  intro t bb a _ _ h
  refine ⟨fun j => ?_, fun j => Nat.mod_lt _ (Nat.two_pow_pos bb), sum_ksDigit (by omega) a⟩
  rw [ksDigit, ksPrec, Nat.shiftRight_eq_div_pow, Nat.and_two_pow_sub_one_eq_mod]

/-! ### Sums over the entries a loop selects -/

section
variable {α : Type} (f : α → Word)

theorem sum_map_flatMap_range (g : Nat → List α) (n : Nat) :
    (((List.range n).flatMap g).map f).sum = ∑ i ∈ Finset.range n, ((g i).map f).sum := by
  induction n with
  | zero => rfl
  | succ n ih => simp [List.range_succ, Finset.sum_range_succ, ih]

theorem sum_map_filterMap_range (g : Nat → Option α) (n : Nat) :
    (((List.range n).filterMap g).map f).sum = ∑ j ∈ Finset.range n, ((g j).map f).getD 0 := by
  induction n with
  | zero => rfl
  | succ n ih =>
    rw [List.range_succ, List.filterMap_append, List.map_append, List.sum_append, ih, Finset.sum_range_succ]
    cases hn : g n <;> simp [hn]

end

/-! ### Subtracting a list of samples (R365) -/

section
variable (es : List LReg) (acc : LReg)

theorem foldl_lweSub_dim : (es.foldl lweSub acc).dim = acc.dim := by
  induction es generalizing acc with
  | nil => rfl
  | cons e es ih => exact ih (lweSub acc e)

theorem foldl_lweSub_a_length (h : acc.a.length = acc.dim) : (es.foldl lweSub acc).a.length = acc.dim := by
  induction es generalizing acc with
  | nil => exact h
  | cons e es ih => exact ih (lweSub acc e) (vec_length ..)

theorem foldl_lweSub_b : (es.foldl lweSub acc).b = acc.b - (es.map LReg.b).sum := by
  induction es generalizing acc with
  | nil => simp
  | cons e es ih =>
    have hb : (lweSub acc e).b = acc.b - e.b := rfl
    rw [List.foldl_cons, ih, hb, List.map_cons, List.sum_cons, sub_sub]

theorem coeff_foldl_lweSub {q : Nat} (hq : q < acc.dim) :
    coeff (es.foldl lweSub acc).a q = coeff acc.a q - (es.map fun e => coeff e.a q).sum := by
  induction es generalizing acc with
  | nil => simp
  | cons e es ih =>
    have ha : coeff (lweSub acc e).a q = coeff acc.a q - coeff e.a q := (coeff_vec ..).trans (if_pos hq)
    rw [List.foldl_cons, ih (lweSub acc e) hq, ha, List.map_cons, List.sum_cons, sub_sub]

/-- R365: the variances add, in order. -/
theorem foldl_lweSub_var : (es.foldl lweSub acc).var = (es.map LReg.var).foldl f64add acc.var := by
  rw [List.foldl_map, List.foldl_hom LReg.var]
  exact fun _ _ => rfl

end

/-! ### The double loop (R465) -/

section
variable (n nSrc t bb : Nat) (cin : LReg) (w : Nat → Nat → Nat → Word)

/-- R465: the entry that digit (i, j) selects, if the digit is not 0. `w i j` are the words of its image. -/
def selectedEntry (i j : Nat) : Option LReg :=
  if ksDigit t bb j (coeff cin.a i) = 0 then none else some (LReg.ofWords n (vec (n + 3) (w i j)))

/-- R465: the selected entries, in the order of the loops. -/
def selectedEntries : List LReg :=
  (List.range nSrc).flatMap fun i => (List.range t).filterMap (selectedEntry n t bb cin w i)

/-- A sum over the selected entries, digit by digit. -/
theorem sum_map_selectedEntries (f : LReg → Word) :
    ((selectedEntries n nSrc t bb cin w).map f).sum =
      ∑ i ∈ Finset.range nSrc, ∑ j ∈ Finset.range t, if ksDigit t bb j (coeff cin.a i) = 0 then 0 else
        f (LReg.ofWords n (vec (n + 3) (w i j))) := by
  rw [selectedEntries, sum_map_flatMap_range]
  refine Finset.sum_congr rfl fun i _ => ?_
  rw [sum_map_filterMap_range]
  refine Finset.sum_congr rfl fun j _ => ?_
  unfold selectedEntry
  split <;> rfl

/-- R111: the variance is the last two words of an image, low word first. -/
theorem map_var_selectedEntries : (selectedEntries n nSrc t bb cin w).map LReg.var =
    (List.range nSrc).flatMap fun i => (List.range t).filterMap fun j =>
      if ksDigit t bb j (coeff cin.a i) = 0 then none else some (w i j (n + 2) ++ w i j (n + 1)) := by
  rw [selectedEntries, List.map_flatMap]
  refine List.flatMap_congr fun i _ => ?_
  rw [List.map_filterMap]
  refine List.filterMap_congr fun j _ => ?_
  unfold selectedEntry
  split
  · rfl
  · simp [LReg.ofWords, coeff_vec]

variable {n nSrc t bb cin w} {m : Memory} {base : Nat}

/-- R465: one turn of the loop, when the entry it reads is written: nothing is drawn. -/
theorem ksStep_written {i j : Nat} (h : ksDigit t bb j (coeff cin.a i) ≠ 0 → ∀ q, q < n + 3 →
      memWord m (kskEntry base n t bb i j (ksDigit t bb j (coeff cin.a i)) + 4 * q) = some (w i j q))
    (acc : LReg × Nat) : ksStep m base n t bb cin i acc j =
      (selectedEntry n t bb cin w i j).elim acc fun e => (lweSub acc.1 e, acc.2) := by
  unfold ksStep selectedEntry
  by_cases hdigit : ksDigit t bb j (coeff cin.a i) = 0
  · simp only [hdigit, if_true, Option.elim_none]
  · have hload : loadWords m acc.2 (kskEntry base n t bb i j (ksDigit t bb j (coeff cin.a i))) (n + 3) =
        (vec (n + 3) (w i j), acc.2) :=
      loadWords_written (vec_length ..) fun q hq => by rw [h hdigit q hq, coeff_vec, if_pos hq]
    simp only [hdigit, if_false, hload, Option.elim_some]

/-- R465: the key switch subtracts the selected entries in order. -/
theorem keySwitch_written (h : ∀ i j, i < nSrc → j < t → ksDigit t bb j (coeff cin.a i) ≠ 0 → ∀ q, q < n + 3 →
      memWord m (kskEntry base n t bb i j (ksDigit t bb j (coeff cin.a i)) + 4 * q) = some (w i j q)) (c : Nat) :
    keySwitch m base nSrc n t bb cin c =
      ((selectedEntries n nSrc t bb cin w).foldl lweSub (lweTrivial n cin.b), c) := by
  have hpair : (selectedEntries n nSrc t bb cin w).foldl (fun acc e => (lweSub acc.1 e, acc.2))
      (lweTrivial n cin.b, c) = ((selectedEntries n nSrc t bb cin w).foldl lweSub (lweTrivial n cin.b), c) :=
    List.foldl_hom (fun x => (x, c)) fun _ _ => rfl
  rw [← hpair, selectedEntries, List.foldl_flatMap, keySwitch]
  refine List.foldl_ext _ _ _ fun acc i hi => ?_
  rw [List.foldl_filterMap]
  refine List.foldl_ext _ _ _ fun acc j hj => ?_
  rw [ksStep_written (h i j (List.mem_range.mp hi) (List.mem_range.mp hj))]
  cases selectedEntry n t bb cin w i j <;> rfl

end

/-- Settles O43: each word of the fold over the selected entries. -/
theorem keySwitchSubtractsTheSelectedEntries : Obligations.KeySwitchSubtractsTheSelectedEntries := by
  intro m base nSrc n t bb cin c w h
  refine ⟨_, keySwitch_written (w := w) (fun i j hi hj hdigit => h i j hi hj hdigit) c, foldl_lweSub_dim ..,
    foldl_lweSub_a_length _ _ (vec_length ..), ?_, fun q hq => ?_, ?_⟩
  · have hb (i j : Nat) : (LReg.ofWords n (vec (n + 3) (w i j))).b = w i j n :=
      (coeff_vec ..).trans (if_pos (by omega))
    rw [foldl_lweSub_b, sum_map_selectedEntries]
    simp only [hb]
    rfl
  · have ha (i j : Nat) : coeff (LReg.ofWords n (vec (n + 3) (w i j))).a q = w i j q := by
      rw [LReg.ofWords, coeff_vec, if_pos hq, coeff_vec, if_pos (by omega)]
    rw [coeff_foldl_lweSub _ _ hq, sum_map_selectedEntries, lweTrivial, coeff_vec, if_pos hq, zero_sub]
    simp only [ha]
  · rw [foldl_lweSub_var, map_var_selectedEntries]
    rfl

/-! ### The instructions (R465, R490 to R492) -/

theorem keySwitch_draws (m : Memory) (base nSrc n t bb : Nat) (cin : LReg) (c : Nat) :
    ∃ (out : LReg) (draws : Nat), keySwitch m base nSrc n t bb cin c = (out, c + draws) := by
  obtain ⟨draws, hdraws⟩ := Nat.exists_eq_add_of_le (keySwitch_le m base nSrc n t bb cin c)
  exact ⟨_, draws, Prod.ext rfl hdraws⟩

theorem blindRotate_draws (n k l bg : Nat) (bk : Assoc Rgsw) (c : LReg) (mu : Word) (c0 : Nat) :
    ∃ (acc : Rlwe) (draws : Nat), blindRotate n k l bg bk c mu c0 = (acc, c0 + draws) := by
  obtain ⟨draws, hdraws⟩ := Nat.exists_eq_add_of_le (blindRotate_le n k l bg bk c mu c0)
  exact ⟨_, draws, Prod.ext rfl hdraws⟩

/-- R465 items 6 and 7. -/
theorem needKsk_ok {s : State} (h : s.kskReady) (k : Unit → Result) : needKsk s k = k () := needSpan_ok h.1 h.2 k

section
variable {s : State} {a : LIdx} {c : LReg} (hring : s.ringOk = true) (hlwe : s.lweOk = true)
  (hc : s.lRegs[a] = some c)
include hring hlwe hc

theorem execKs_ok (hks : s.ksOk = true) (hdim : c.dim = s.extN) (hready : s.kskReady) (d : LIdx) :
    execKs d a s =
      done { s.setL d (s.keySwitch c s.drawCtr).1 with drawCtr := (s.keySwitch c s.drawCtr).2 } := by
  rw [execKs, needRing_ok hring, needLwe_ok hlwe, needKs_ok hks, withL_some hc, tagL_ok hdim, needKsk_ok hready]

variable {b : SIdx} {mu : Word} (hgad : s.gadOk = true) (hfit : s.bkFit = true) (hmu : s.getS b = some mu)
  (hdim : c.dim = s.lweN) (hbk : s.bkReady)
include hgad hfit hmu hdim hbk

theorem execBrRot_ok (d : RIdx) : execBrRot d a b s =
    done { s.setR d (s.blindRotate c mu).1 with drawCtr := (s.blindRotate c mu).2 } :=
  needBoot_ok hring hlwe hgad Bool.noConfusion hfit hc hmu hdim hbk _

theorem execBootNks_ok (d : LIdx) : execBootNks d a b s =
    done { s.setL d (s.bootExtract c mu) with drawCtr := (s.blindRotate c mu).2 } :=
  needBoot_ok hring hlwe hgad Bool.noConfusion hfit hc hmu hdim hbk _

theorem execBoot_ok (hks : s.ksOk = true) (hready : s.kskReady) (d : LIdx) : execBoot d a b s =
    done { s.setL d (s.bootSwitch c mu).1 with drawCtr := (s.bootSwitch c mu).2 } :=
  (needBoot_ok hring hlwe hgad (fun _ => hks) hfit hc hmu hdim hbk _).trans (needKsk_ok hready _)

end

/-- Settles O42: past the checks, the composed values, with the draws counted from the state's counter. -/
theorem keySwitchAndBootstrapResults : Obligations.KeySwitchAndBootstrapResults := by
  refine ⟨fun s d a cin hring hlwe hks hc hdim hready => ?_,
    fun s r d a b c mu hring hlwe hgad hfit hc hmu hdim hbk => ?_⟩
  · obtain ⟨out, draws, hout⟩ : ∃ out draws, s.keySwitch cin s.drawCtr = (out, s.drawCtr + draws) :=
      keySwitch_draws ..
    have hexec := execKs_ok hring hlwe hc hks hdim hready d
    rw [hout] at hexec
    exact ⟨out, draws, hout, hexec⟩
  · obtain ⟨acc, n1, hacc⟩ : ∃ acc n1, s.blindRotate c mu = (acc, s.drawCtr + n1) := blindRotate_draws ..
    have hextract : s.bootExtract c mu = rlweExtract s.ringN s.rankK 0 acc := by rw [State.bootExtract, hacc]
    have hrot := execBrRot_ok hring hlwe hc hgad hfit hmu hdim hbk r
    have hnks := execBootNks_ok hring hlwe hc hgad hfit hmu hdim hbk d
    rw [hacc] at hrot
    rw [hextract, hacc] at hnks
    refine ⟨acc, n1, hacc, hrot, hnks, fun hks hready => ?_⟩
    obtain ⟨out, n2, hout⟩ : ∃ out n2, s.keySwitch (rlweExtract s.ringN s.rankK 0 acc) (s.drawCtr + n1) =
        (out, s.drawCtr + n1 + n2) := keySwitch_draws ..
    have hboot := execBoot_ok hring hlwe hc hgad hfit hmu hdim hbk hks hready d
    rw [State.bootSwitch, hextract, hacc, hout, Nat.add_assoc] at hboot
    exact ⟨out, n2, hout, hboot⟩

end Sys2Proof.Machine
end

section
/-! PROOF of O45 to O47: the blind rotation and the sign it reads off (R483, R484, R487, R498). With every exponent 0 the
loop leaves its start, X^e0·v as a trivial sample, and coefficient 0 of that is μ or −μ by the half of [0, 2N) that b̄
lies in. The combined phases of the gates are eighths of the torus, which a degree divisible by 4 rounds exactly. -/

namespace Sys2Proof.Machine

/-! ### The steps of the blind rotation (R484) -/

section
variable (n k l bg : Nat) (bk : Assoc Rgsw) (c : LReg)

/-- R484: an exponent of 0 is skipped. -/
theorem blindStep_skip {i : Nat} (h : msfrom (coeff c.a i) (2 * n) = 0) (acc : Rlwe × Nat) :
    blindStep n k l bg bk c acc i = acc := if_pos h

/-- R484: any other adds the external product with (X^ā − 1)·ACC. -/
theorem blindStep_add {i : Nat} {g : Rgsw} (hg : assocGet bk i = some g) (h : msfrom (coeff c.a i) (2 * n) ≠ 0)
    (acc : Rlwe × Nat) : blindStep n k l bg bk c acc i =
      (rlweCombine (fun u v => u + v) n k (Config.freeF64 acc.2) acc.1
        (extprod n k l bg g (rlweMulXaiM1 n k (msfrom (coeff c.a i) (2 * n)) acc.1 (Config.freeF64 acc.2)) acc.2
          (Config.freeF64 acc.2)), acc.2 + extDraws n k) := by
  simp only [blindStep, if_neg h, hg, Option.getD_some]

/-- R484: the dimension only counts the steps. -/
theorem blindRotate_dim (mu : Word) (c0 d : Nat) : blindRotate n k l bg bk { c with dim := d } mu c0 =
    (List.range d).foldl (blindStep n k l bg bk c) (preRotate n k c.b mu, c0) :=
  List.foldl_ext _ _ _ fun acc i _ => blindStep_dim n k l bg bk c d acc i

/-- R483: the start, and no step. -/
theorem blindRotate_dim_zero (mu : Word) (c0 : Nat) : blindRotate n k l bg bk { c with dim := 0 } mu c0 =
    (rlweTrivial n k (rot n (preExponent n c.b) (List.replicate n mu)), c0) := by
  rw [blindRotate_dim, List.range_zero, List.foldl_nil, preRotate, vec_const]

/-- R484: a dimension more is one step more, on the ACC before. -/
theorem blindRotate_dim_succ (mu : Word) (c0 i : Nat) : blindRotate n k l bg bk { c with dim := i + 1 } mu c0 =
    blindStep n k l bg bk c (blindRotate n k l bg bk { c with dim := i } mu c0) i := by
  rw [blindRotate_dim, blindRotate_dim, List.range_succ, List.foldl_append, List.foldl_cons, List.foldl_nil]

/-- R484: when every exponent is 0, the accumulator stays at its start. -/
theorem blindRotate_of_zero_exponents (h : ∀ i, i < c.dim → msfrom (coeff c.a i) (2 * n) = 0) (mu : Word) (c0 : Nat) :
    blindRotate n k l bg bk c mu c0 =
      (rlweTrivial n k (rot n (preExponent n c.b) (List.replicate n mu)), c0) := by
  rw [blindRotate, List.foldl_ext _ (fun acc _ => acc) _
    fun acc i hi => blindStep_skip n k l bg bk c (h i (List.mem_range.mp hi)) acc, List.foldl_fixed, preRotate, vec_const]

end

/-- Settles O45: the start, and the two cases of a step. -/
theorem blindRotationSteps : Obligations.BlindRotationSteps := by
  intro n k l bg bk c mu c0
  refine ⟨blindRotate_dim_zero .., fun i acc c1 hacc => ⟨fun hzero => ?_, fun g hg hne => ?_⟩⟩
  · rw [blindRotate_dim_succ, hacc, blindStep_skip n k l bg bk c hzero]
  · refine ⟨Config.freeF64 c1, _, rfl, ?_⟩
    rw [blindRotate_dim_succ, hacc, blindStep_add n k l bg bk c hg hne]
    rfl

/-! ### The sign of the rounded phase (R487) -/

theorem coeff_replicate {n i : Nat} (h : i < n) (x : Word) : coeff (List.replicate n x) i = x := by
  rw [← vec_const, coeff_vec, if_pos h]

/-- R482, R487: coefficient 0 of X^e0·v. -/
theorem coeff_rot_preExponent {n : Nat} (hn : 0 < n) (b mu : Word) :
    coeff (rot n (preExponent n b) (List.replicate n mu)) 0 = if msfrom b (2 * n) < n then mu else -mu := by
  have hlt : msfrom b (2 * n) < 2 * n := msfrom_lt (by omega) b
  rw [coeff_rot n _ _ hn, preExponent]
  rcases Nat.eq_zero_or_pos (msfrom b (2 * n)) with hzero | hpos
  · rw [hzero, Nat.sub_zero, Nat.mod_self, if_pos hn, if_pos le_rfl, if_pos hn, coeff_replicate (by omega)]
  · rw [Nat.mod_eq_of_lt (by omega)]
    by_cases hlow : msfrom b (2 * n) < n
    · rw [if_neg (by omega), if_neg (by omega), if_pos hlow, coeff_replicate (by omega)]
    · rw [if_neg hlow]
      by_cases heq : msfrom b (2 * n) = n
      · rw [if_neg (by omega), if_pos (by omega), coeff_replicate (by omega)]
      · rw [if_pos (by omega), if_neg (by omega), coeff_replicate (by omega)]

theorem get_rlweTrivial (n k q : Nat) (mu : List Word) : (rlweTrivial n k mu).get q =
    if q < k + 1 then vec n fun i => if q < k then 0 else coeff mu i else [] := get_vec ..

/-- R403, R408: the extraction of a trivial sample at index 0 is a trivial sample. -/
theorem rlweExtract_rlweTrivial {n : Nat} (hn : 0 < n) (k : Nat) (mu : List Word) :
    rlweExtract n k 0 (rlweTrivial n k mu) = ⟨k * n, List.replicate (k * n) 0, coeff mu 0, 0⟩ := by
  rw [rlweExtract, LReg.mk.injEq, ← vec_const]
  refine ⟨rfl, vec_congr fun q hq => ?_, ?_, rfl⟩
  · have hk : q / n < k := Nat.div_lt_of_lt_mul (by rwa [Nat.mul_comm] at hq)
    have hmask (i : Nat) : coeff ((rlweTrivial n k mu).get (q / n)) i = 0 := by
      simp [get_rlweTrivial, hk, Nat.lt_succ_of_lt hk, coeff_vec]
    simp [hmask]
  · rw [get_rlweTrivial, if_pos (Nat.lt_succ_self k), coeff_vec, if_pos hn, if_neg (Nat.lt_irrefl k)]

/-- Settles O46: the extraction of the start, whose constant coefficient is read off by the sign. -/
theorem bootstrapSignOfTrivialSamples : Obligations.BootstrapSignOfTrivialSamples := by
  intro s d a b c mu hring hlwe hgad hfit hc hmu hdim hbk hzero
  have hn : 0 < s.ringN := (degreeOk_of_nOk (Bool.and_eq_true_iff.mp hring).1).le.1
  have hrot : s.blindRotate c mu =
      (rlweTrivial s.ringN s.rankK (rot s.ringN (preExponent s.ringN c.b) (List.replicate s.ringN mu)), s.drawCtr) :=
    blindRotate_of_zero_exponents _ _ _ _ _ c (fun i hi => hzero i (hdim ▸ hi)) mu s.drawCtr
  have hexec := execBootNks_ok hring hlwe hc hgad hfit hmu hdim hbk d
  rw [State.bootExtract, hrot, rlweExtract_rlweTrivial hn, coeff_rot_preExponent hn] at hexec
  exact hexec

/-! ### The gates (R497, R498) -/

/-- R261: a degree divisible by 4 rounds an eighth of the torus exactly, so rounding keeps its sign. -/
theorem msfrom_lt_iff_of_eighth {n : Nat} (hn : 1 ≤ n) (h4 : 4 ∣ n) {x : Word} (hx : 2 ^ 29 ∣ x.toNat) :
    msfrom x (2 * n) < n ↔ x.toNat < 2 ^ 31 := by
  obtain ⟨m, rfl⟩ := h4
  obtain ⟨j, hj⟩ := hx
  have hj8 : j < 8 := by have := x.isLt; omega
  have hround : msfrom x (2 * (4 * m)) = j * m := by
    have hexact : 2 ^ 29 * j * (2 * (4 * m)) + 2 ^ 31 = 2 ^ 31 + 2 ^ 32 * (j * m) := by ring
    have hlt : j * m < 8 * m := Nat.mul_lt_mul_of_pos_right hj8 (by omega)
    rw [msfrom, hj, hexact, Nat.add_mul_div_left _ _ (by norm_num), Nat.mod_eq_of_lt (by omega)]
    omega
  rw [hround, hj, Nat.mul_lt_mul_right (by omega : 0 < m)]
  omega

/-- R496, R498: the combined phases are eighths of the torus, in its lower half exactly when the gate is true. -/
theorem phase_eighth_and_sign (g : Gate) (a b : Bool) :
    2 ^ 29 ∣ (g.phase a b).toNat ∧ ((g.phase a b).toNat < 2 ^ 31 ↔ g.truth a b = true) := by
  cases g <;> revert a b <;> decide

/-- R52: every legal degree but 2 is divisible by 4. -/
theorem degreeOk.four_dvd {n : Nat} (h : degreeOk n) (h4 : 4 ≤ n) : 4 ∣ n := by
  simp only [degreeOk, List.mem_cons, List.not_mem_nil, or_false] at h
  omega

/-- Settles O47: the sign of the rounded phase, and at N = 2 the NAND of two true inputs, whose phase −1/8 rounds
to 0. -/
theorem gateBiasesGiveTheTruthTable : Obligations.GateBiasesGiveTheTruthTable := by
  refine ⟨fun g a b n hn h4 => ?_, by unfold degreeOk; decide, .nand, true, true, by decide⟩
  obtain ⟨heighth, hsign⟩ := phase_eighth_and_sign g a b
  exact (msfrom_lt_iff_of_eighth hn.le.1 (hn.four_dvd h4) heighth).trans hsign

end Sys2Proof.Machine
end

section
/-! PROOF of O6 and O51: faults (R523, R524, R532, R591). A fault of the CORE is a next state, so every instruction and
every turn answers one. Every check of an instruction stands before its writes, and an instruction that completes leaves
STATE; so where one ends FAULTED, a check has taken the fault on the state it was given, but for the draws of a key
image. Each instruction's proof follows its checks and ends where it completes. -/

namespace Sys2Proof.Machine

/-! ### Every step answers (R532, R591) -/

/-- R200: the cycle's own faults are next states, and so is what an instruction answers. -/
theorem cycle_answers_next (s : State) : ∃ t, cycle s = .next t := by
  have hword (w : InstrWord) (s : State) : ∃ t, runWord w s = .next t := by
    unfold runWord
    split
    · obtain ⟨t, ht, -⟩ := exec_frame _ s
      exact ⟨t, ht⟩
    · exact ⟨_, rfl⟩
  unfold cycle
  split
  · split
    · exact ⟨_, rfl⟩
    · exact hword ..
  · exact ⟨_, rfl⟩

/-- Settles O6: a turn is the host's or the sequencer's, and each answers. -/
theorem everyStepAnswersNext : Obligations.EveryStepAnswersNext := by
  refine ⟨fun s => ?_, fun i s => ?_⟩
  · unfold step turn
    split
    case h_1 => exact cycle_answers_next s
    case h_2 => exact cycle_answers_next _
    case h_3 => exact ⟨_, rfl⟩
    case h_4 => exact ⟨_, rfl⟩
  · obtain ⟨t, ht, -⟩ := exec_frame i s
    exact ⟨t, ht⟩

/-! ### What a fault leaves (R523) -/

/-- R523: taking a fault writes the five registers; `n` draws may have been made before. -/
theorem faultFrame_takeFault (s : State) (n : Nat) {x : Exc} (hx : x.cause ≠ .none) :
    FaultFrame s (State.takeFault { s with drawCtr := n } x) where
  runState := rfl
  cause := hx
  faultPc := rfl
  pending := rfl
  rest := rfl

/-- R15, R524: what an instruction can do: take a fault before it has written anything, or complete. -/
def FaultsOrCompletes (s t : State) : Prop :=
  (∃ (n : Nat) (x : Exc), x.cause ≠ .none ∧ t = State.takeFault { s with drawCtr := n } x) ∨ t.runState ≠ .faulted

theorem FaultsOrCompletes.faultFrame {s t : State} (h : FaultsOrCompletes s t) (ht : t.runState = .faulted) :
    FaultFrame s t := by
  rcases h with ⟨n, x, hx, rfl⟩ | hok
  · exact faultFrame_takeFault s n hx
  · exact absurd ht hok

/-- R15: a check faults on the state it was given. -/
theorem check_faults (s : State) : ∀ x : Exc, x.cause ≠ .none → FaultsOrCompletes s (s.takeFault x) :=
  fun x hx => .inl ⟨s.drawCtr, x, hx, rfl⟩

/-- R115: the fault of a bad key word is taken after the load's draws. -/
theorem keyWords_fault (s : State) (ea : Word) (cnt : Nat) :
    ∀ x : Exc, x.cause ≠ .none → FaultsOrCompletes s ((s.afterLoad ea cnt).takeFault x) :=
  fun x hx => .inl ⟨_, x, hx, rfl⟩

section
variable {s : State} (hrun : s.runState = .running)
include hrun

/-- An instruction that leaves STATE has not faulted. -/
theorem next_completes {t : State} (hst : t.runState = s.runState := by simp) :
    Answers (.next t) (FaultsOrCompletes s) :=
  (next_answers t).mpr (.inr fun hf => RunState.noConfusion (hf.symm.trans (hst.trans hrun)))

theorem done_completes {t : State} (hst : t.runState = s.runState := by simp) :
    Answers (done t) (FaultsOrCompletes s) := next_completes hrun hst

/-! ### The shapes that several instructions share -/

theorem scalarBin_outcome (f : Word → Word → Word) (d a b : SIdx) :
    Answers (scalarBin f d a b s) (FaultsOrCompletes s) := by
  have hf := check_faults s
  exact answers_withS hf fun _ => answers_withS hf fun _ => done_completes hrun

theorem branch_outcome (cond : Word → Word → Bool) (a b : SIdx) (imm : Word) :
    Answers (branch cond a b imm s) (FaultsOrCompletes s) := by
  have hf := check_faults s
  refine answers_withS hf fun _ => answers_withS hf fun _ => ?_
  split
  · exact next_completes hrun
  · exact done_completes hrun

theorem polyBin_outcome (f : Word → Word → Word) (d a b : PIdx) :
    Answers (polyBin f d a b s) (FaultsOrCompletes s) := by
  have hf := check_faults s
  exact answers_needN hf fun _ => answers_withP hf fun _ => answers_withP hf fun _ => answers_tagP hf <|
    answers_tagP hf <| done_completes hrun

theorem polyMono_outcome (f : Nat → List Word → List Word) (d a : PIdx) (b : SIdx) :
    Answers (polyMono f d a b s) (FaultsOrCompletes s) := by
  have hf := check_faults s
  exact answers_needN hf fun _ => answers_withP hf fun _ => answers_withS hf fun _ => answers_tagP hf <|
    answers_needBelow hf fun _ => done_completes hrun

theorem forward_outcome (cls : List Int → ErrClass) (d : FIdx) (a : PIdx) :
    Answers (forward cls d a s) (FaultsOrCompletes s) := by
  have hf := check_faults s
  exact answers_needN hf fun _ => answers_withP hf fun _ => answers_tagP hf <| done_completes hrun

theorem lweEnc_outcome (sel : KeySel) (d : LIdx) (a : SIdx) : Answers (lweEnc sel d a s) (FaultsOrCompletes s) := by
  have hf := check_faults s
  exact answers_needSel hf fun _ => answers_withS hf fun _ => answers_withKey hf fun _ _ => answers_tagKey hf <|
    done_completes hrun

theorem lweDec_outcome (sel : KeySel) (d : SIdx) (a : LIdx) (b : SIdx) :
    Answers (lweDec sel d a b s) (FaultsOrCompletes s) := by
  have hf := check_faults s
  exact answers_needSel hf fun _ => answers_withL hf fun _ _ => answers_withS hf fun _ =>
    answers_withKey hf fun _ _ => answers_tagL hf fun _ => answers_tagKey hf <| answers_needModulus hf <|
      done_completes hrun

theorem lwePhase_outcome (sel : KeySel) (d : SIdx) (a : LIdx) :
    Answers (lwePhase sel d a s) (FaultsOrCompletes s) := by
  have hf := check_faults s
  exact answers_needSel hf fun _ => answers_withL hf fun _ _ => answers_withKey hf fun _ _ =>
    answers_tagL hf fun _ => answers_tagKey hf <| done_completes hrun

theorem lweTriv_outcome (sel : KeySel) (d : LIdx) (a : SIdx) :
    Answers (lweTriv sel d a s) (FaultsOrCompletes s) := by
  have hf := check_faults s
  exact answers_needSel hf fun _ => answers_withS hf fun _ => done_completes hrun

theorem lweAcc_outcome (f : LReg → LReg → LReg) (d a : LIdx) : Answers (lweAcc f d a s) (FaultsOrCompletes s) := by
  have hf := check_faults s
  exact answers_withL hf fun _ _ => answers_withL hf fun _ _ => answers_tagL hf fun _ => done_completes hrun

theorem lweAccMul_outcome (f : Word → LReg → LReg → LReg) (d a : LIdx) (b : SIdx) :
    Answers (lweAccMul f d a b s) (FaultsOrCompletes s) := by
  have hf := check_faults s
  exact answers_withL hf fun _ _ => answers_withS hf fun _ => answers_withL hf fun _ _ =>
    answers_tagL hf fun _ => done_completes hrun

theorem lweLoad_outcome (sel : KeySel) (d : LIdx) (a : SIdx) (imm : Word) :
    Answers (lweLoad sel d a imm s) (FaultsOrCompletes s) := by
  have hf := check_faults s
  exact answers_needSel hf fun _ => answers_withS hf fun _ => answers_needSpan hf fun _ => done_completes hrun

theorem rlweAcc_outcome (f : Word → Word → Word) (d a : RIdx) :
    Answers (rlweAcc f d a s) (FaultsOrCompletes s) := by
  have hf := check_faults s
  exact answers_needRing hf fun _ _ => answers_withR hf fun _ _ => answers_withR hf fun _ _ =>
    answers_tagR hf <| answers_tagR hf <| done_completes hrun

theorem execCsrr_outcome (d : SIdx) (c : Nat) : Answers (execCsrr d c s) (FaultsOrCompletes s) := by
  unfold execCsrr
  cases csrRead s c with
  | none => exact (raise_answers ..).mpr (check_faults s _ Cause.noConfusion)
  | some v => exact done_completes hrun

/-! ### Every instruction -/

/-- R524: every instruction takes its fault in a check, before its writes, or completes. -/
theorem exec_outcome (i : Instr) : Answers (exec i s) (FaultsOrCompletes s) := by
  have hf := check_faults s
  unfold exec
  cases i with
  -- system, scalar and control (40_sequencer.md)
  | nop | sLi => exact done_completes hrun
  | halt => exact (next_answers _).mpr (.inr RunState.noConfusion)
  | csrr d c => exact execCsrr_outcome hrun d c
  | csrw => exact answers_need hf Cause.noConfusion fun _ => answers_withS hf fun _ => done_completes hrun
  | sAddi => exact answers_withS hf fun _ => done_completes hrun
  | sAdd | sSub | sMul | sAnd | sSll | sSrl => exact scalarBin_outcome hrun ..
  | sLw => exact answers_withS hf fun _ => answers_needSpan hf fun _ => done_completes hrun
  | sSw => exact answers_withS hf fun _ => answers_withS hf fun _ => answers_needSpan hf fun _ => done_completes hrun
  | beq | bne | blt | bltu => exact branch_outcome hrun ..
  | jmp | jal => exact next_completes hrun
  | jr => exact answers_withS hf fun _ => next_completes hrun
  -- torus scalar (41_torus.md)
  | mswF | aphase =>
    exact answers_withS hf fun _ => answers_withS hf fun _ => answers_needModulus hf <| done_completes hrun
  | mswT =>
    exact answers_withS hf fun _ => answers_withS hf fun _ => answers_needModulus hf <|
      answers_needBelow hf fun _ => done_completes hrun
  | gauss => exact answers_withS hf fun _ => done_completes hrun
  -- polynomial ring and FFT engine (42_polynomial.md, 43_fft.md)
  | pClr | fClr => exact answers_needN hf fun _ => done_completes hrun
  | pAdd | pSub => exact polyBin_outcome hrun ..
  | pMulfft =>
    exact answers_needN hf fun _ => answers_withP hf fun _ => answers_withP hf fun _ => answers_tagP hf <|
      answers_tagP hf <| done_completes hrun
  | pAddmulz =>
    exact answers_needN hf fun _ => answers_withP hf fun _ => answers_withS hf fun _ => answers_withP hf fun _ =>
      answers_tagP hf <| answers_tagP hf <| done_completes hrun
  | pMulxai | pMulxaim1 => exact polyMono_outcome hrun ..
  | pLd =>
    exact answers_needN hf fun _ => answers_withS hf fun _ => answers_needSpan hf fun _ => done_completes hrun
  | pSt =>
    exact answers_needN hf fun _ => answers_withS hf fun _ => answers_withP hf fun _ => answers_tagP hf <|
      answers_needSpan hf fun _ => done_completes hrun
  | fFwdi | fFwdt => exact forward_outcome hrun ..
  | fInv => exact answers_needN hf fun _ => answers_withF hf fun _ _ => answers_tagF hf <| done_completes hrun
  | fMuladd =>
    exact answers_needN hf fun _ => answers_withF hf fun _ _ => answers_withF hf fun _ _ =>
      answers_withF hf fun _ _ => answers_tagF hf <| answers_tagF hf <| answers_tagF hf <| done_completes hrun
  | fMono =>
    exact answers_needN hf fun _ => answers_withS hf fun _ => answers_needBelow hf fun _ => done_completes hrun
  -- LWE (44_lwe.md)
  | lEnc | lEncX => exact lweEnc_outcome hrun ..
  | lDec | lDecX => exact lweDec_outcome hrun ..
  | lPhase | lPhaseX => exact lwePhase_outcome hrun ..
  | lTriv | lTrivX => exact lweTriv_outcome hrun ..
  | lAdd | lSub => exact lweAcc_outcome hrun ..
  | lAddmul | lSubmul => exact lweAccMul_outcome hrun ..
  | lNeg | lCopy => exact answers_withL hf fun _ _ => done_completes hrun
  | lLd | lLdX => exact lweLoad_outcome hrun ..
  | lSt =>
    exact answers_withS hf fun _ => answers_withL hf fun _ _ => answers_needSpan hf fun _ => done_completes hrun
  | keyLdl =>
    exact answers_needLwe hf fun _ => answers_withS hf fun _ => answers_needSpan hf fun _ =>
      answers_needKeyWords (keyWords_fault s _ _) <| done_completes hrun
  -- RLWE (45_rlwe.md)
  | rEnc0 => exact answers_needRing hf fun _ _ => answers_withKeyR hf fun _ => done_completes hrun
  | rEnc =>
    exact answers_needRing hf fun _ _ => answers_withP hf fun _ => answers_tagP hf <|
      answers_withKeyR hf fun _ => done_completes hrun
  | rPhase =>
    exact answers_needRing hf fun _ _ => answers_withR hf fun _ _ => answers_tagR hf <|
      answers_withKeyR hf fun _ => done_completes hrun
  | rTriv => exact answers_needRing hf fun _ _ => answers_withP hf fun _ => answers_tagP hf <| done_completes hrun
  | rAdd | rSub => exact rlweAcc_outcome hrun ..
  | rAddmulr =>
    exact answers_needRing hf fun _ _ => answers_withP hf fun _ => answers_withR hf fun _ _ =>
      answers_withR hf fun _ _ => answers_tagP hf <| answers_tagR hf <| answers_tagR hf <| done_completes hrun
  | rMulxaim1 | rExtract =>
    exact answers_needRing hf fun _ _ => answers_withR hf fun _ _ => answers_withS hf fun _ =>
      answers_tagR hf <| answers_needBelow hf fun _ => done_completes hrun
  | rLd =>
    exact answers_needRing hf fun _ _ => answers_withS hf fun _ => answers_needSpan hf fun _ => done_completes hrun
  | rSt =>
    exact answers_needRing hf fun _ _ => answers_withS hf fun _ => answers_withR hf fun _ _ => answers_tagR hf <|
      answers_needSpan hf fun _ => done_completes hrun
  | keyLdr =>
    exact answers_needRing hf fun _ _ => answers_withS hf fun _ => answers_needSpan hf fun _ =>
      answers_needKeyWords (keyWords_fault s _ _) <| done_completes hrun
  -- RGSW (46_rgsw.md)
  | gDecomp =>
    exact answers_needN hf fun _ => answers_needGad hf fun _ => answers_withP hf fun _ => answers_tagP hf <|
      answers_need hf Cause.noConfusion fun _ => done_completes hrun (setPs_keeps _ (fun _ _ => rfl) ..)
  | gEnc =>
    exact answers_needRing hf fun _ _ => answers_needGad hf fun _ => answers_withS hf fun _ =>
      answers_withS hf fun _ => answers_withKeyR hf fun _ => answers_needBelow hf fun _ => done_completes hrun
  | gLd =>
    exact answers_needRing hf fun _ _ => answers_needGad hf fun _ => answers_withS hf fun _ =>
      answers_withS hf fun _ => answers_needBelow hf fun _ => answers_needSpan hf fun _ => done_completes hrun
  | gExtprod =>
    exact answers_needRing hf fun _ _ => answers_needGad hf fun _ => answers_withR hf fun _ _ =>
      answers_withS hf fun _ => answers_tagR hf <| answers_needBelow hf fun _ => answers_withSlot hf fun _ =>
        done_completes hrun
  -- key switching and bootstrapping (47_keyswitch.md, 48_bootstrap.md)
  | ks =>
    exact answers_needRing hf fun _ _ => answers_needLwe hf fun _ => answers_needKs hf <|
      answers_withL hf fun _ _ => answers_tagL hf fun _ => answers_needKsk hf <| done_completes hrun
  | brRot | bootNks => exact answers_needBoot hf fun _ _ _ _ _ => done_completes hrun
  | boot => exact answers_needBoot hf fun _ _ _ _ _ => answers_needKsk hf <| done_completes hrun

end

/-- Settles O51: the fault's five writes, and what every outcome that is a fault comes from. -/
theorem faultActionAndFaultFrame : Obligations.FaultActionAndFaultFrame :=
  ⟨fun _ _ => rfl, fun i _ _ hrun ht hfaulted => ((exec_outcome hrun i).of_eq ht).faultFrame hfaulted⟩

end Sys2Proof.Machine
end
